-- ==== Sys2Proof/Word.lean ====
section
/-!
DEFINITION. The part's words and numbers: bytes, host words, generations, erase counts, the
numbers of lines, sectors, pages and physical sectors, the two dies, and the sparse table type.
-/

namespace Sys2Proof

/-- A byte of a line, a tag area or a management frame. -/
abbrev Byte := BitVec 8

/-- A host word: 16 bits, two byte lanes (00_scope, Geometry). -/
abbrev HostWord := BitVec 16

/-- A host word address, HA[24:0] (R132). -/
abbrev WordAddr := BitVec 25

/-- A generation: 32 bits (R43, R54). -/
abbrev Gen := BitVec 32

/-- An erase count: 24 bits (R33, R43). -/
abbrev EraseCount := BitVec 24

/-- A logical line number, 0 to 2,097,151. -/
abbrev LineNo := Fin 2097152

/-- A logical sector number, 0 to 1023. -/
abbrev Sector := Fin 1024

/-- A protection page number, 0 to 16,383. -/
abbrev Page := Fin 16384

/-- A physical sector number over both dies, 0 to 1055. -/
abbrev Phys := Fin 1056

/-- A line position within a sector, 0 to 2047. -/
abbrev Pos := Fin 2048

/-- The two array dies. -/
inductive DieId where
  | die0
  | die1
  deriving DecidableEq, Repr

/-- One value for each die: the schedulers, the commit lanes, the erase slots. -/
structure PerDie (α : Type) where
  die0 : α
  die1 : α
  deriving DecidableEq, Repr

/-- The value kept for die `d`. -/
def PerDie.get {α : Type} (p : PerDie α) (d : DieId) : α :=
  match d with
  | .die0 => p.die0
  | .die1 => p.die1

/-- `p` with the value of die `d` replaced. -/
def PerDie.set {α : Type} (p : PerDie α) (d : DieId) (x : α) : PerDie α :=
  match d with
  | .die0 => { p with die0 := x }
  | .die1 => { p with die1 := x }

/-- A sparse table: key and value pairs, the keys rising. What an unlisted key means is said by
whoever reads the table. -/
abbrev Table (α : Type) := List (Nat × α)

/-- The 32 bytes of a line, in ascending address order. -/
abbrev LineData := List Byte

end Sys2Proof
end

