-- ==== Sys2Proof/Config.lean ====
section
/-!
DEFINITION. What the spec leaves open as a VALUE: the free values. Each is a constant without a
body, so nothing can be proved of it; the State's own counter `draws` picks a fresh one at each
use (assumption log 12).
-/

namespace Sys2Proof

/-- The bits of the byte at an address that a cut or failed operation left unchanged (R56, R57,
R58), at the given draw. Free value. -/
opaque Config.keptBits (draw address : Nat) : BitVec 8

/-- Whether a cut erase had reached the tag area (R58), at the given draw. Free value. -/
opaque Config.eraseReachedTag (draw : Nat) : Bool

end Sys2Proof
end

