-- ==== Sys2Proof/Syntax.lean ====
section
/-!
DEFINITION. The commands of the part: one constructor for each row of spec/opcode_table.json, with
the operands a command of that row carries. The table lists operations and events; a constructor
is one happening, whole and indivisible.
-/

namespace Sys2Proof

/-- A command: a host cycle, a pin edge, a frame of the management link, an answer of a die, the
expiry of a timer, or a happening of the part's own blocks. Results of the dies carry only what
the stored bytes do not decide: `ok` says whether the die did the operation as R47 states (true) or
reports FAIL (false). -/
inductive Instr where
  /-- POR (R155): the supply becomes valid. -/
  | por
  /-- RST_ASSERTED (R155): a falling edge of RST#. -/
  | rstAsserted
  /-- RST_RELEASED (R156): RST# is released. -/
  | rstReleased
  /-- PFAIL_ASSERTED (R161): PFAIL# goes to its active level. -/
  | pfailAsserted
  /-- PFAIL_RELEASED (R162): PFAIL# returns from its active level. -/
  | pfailReleased
  /-- FLUSH_FALLING_EDGE (R163): a falling edge of FLUSH#. -/
  | flushFallingEdge
  /-- HOST_READ (R134): a read cycle arrives at a word address with the enabled byte lanes. -/
  | hostRead (addr : WordAddr) (low high : Bool)
  /-- HOST_WRITE (R136): a write cycle arrives with its data and the enabled byte lanes. -/
  | hostWrite (addr : WordAddr) (data : HostWord) (low high : Bool)
  /-- HOST_CYCLE_ABANDONED (R142): the host releases HSEL# or its strobe while HRDY is low. -/
  | hostCycleAbandoned
  /-- HOST_CYCLE_END (R131): the host releases HSEL# or its strobe after completion. -/
  | hostCycleEnd
  /-- COMMIT_DELAY_EXPIRY (R8): the age of the line's OPEN entry reaches the commit delay. -/
  | commitDelayExpiry (line : LineNo)
  /-- LONG_STALL (R143): the held cycle's stall reaches the stall threshold. -/
  | longStall
  /-- HELD_WRITE_PRESENTED (R138): the port presents its held write again. -/
  | heldWritePresented
  /-- FLUSH_DRAIN (R12): the WMB reports the drain of the flush boundary. -/
  | flushDrain
  /-- LANE_TAKE (R62): the IDLE lane of the die takes a candidate. -/
  | laneTake (d : DieId)
  /-- LANE_READ_LINE_RESULT (R64): the lane's READ LINE returns. -/
  | laneReadLineResult (d : DieId)
  /-- LANE_PROGRAM_LINE_RESULT (R67): the lane's PROGRAM LINE ends. -/
  | laneProgramLineResult (d : DieId) (ok : Bool)
  /-- RELOCATION_TAKE (R80): the relocation engine takes the head of its queue. -/
  | relocationTake
  /-- SPARE_REPORT (R82): a report reaches a relocation AWAITING SPARE. -/
  | spareReport
  /-- CLAIM_RESULT (R83): the target's CLAIM program ends. -/
  | claimResult (ok : Bool)
  /-- COPY_READ_LINE_RESULT (R85): a source line returns. -/
  | copyReadLineResult
  /-- COPY_PROGRAM_LINE_RESULT (R85): a copy PROGRAM LINE ends. -/
  | copyProgramLineResult (ok : Bool)
  /-- SEAL_RESULT (R87): the target's SEAL program ends. -/
  | sealResult (ok : Bool)
  /-- SOURCE_RETIRE_RESULT (R88): the RETIRE program on a suspect old physical sector ends. -/
  | sourceRetireResult (ok : Bool)
  /-- TARGET_RETIRE_RESULT (R90): the RETIRE program on a failed target ends. -/
  | targetRetireResult (ok : Bool)
  /-- ERASE_START (R101): the erase engine considers a start on the die. -/
  | eraseStart (d : DieId)
  /-- ERASE_SECTOR_RESULT (R103): the die's ERASE SECTOR ends. -/
  | eraseSectorResult (d : DieId) (ok : Bool)
  /-- COUNT_RESULT (R104): the slot's COUNT program ends. -/
  | countResult (d : DieId) (ok : Bool)
  /-- ERASE_RETIRE_RESULT (R106): the slot's RETIRE program ends. -/
  | eraseRetireResult (d : DieId) (ok : Bool)
  /-- RELEASE_PROGRAM_RESULT (R30): the release's RELEASE program ends. -/
  | releaseProgramResult (ok : Bool)
  /-- RELEASE_RETIRE_RESULT (R31): the release's RETIRE program ends. -/
  | releaseRetireResult (ok : Bool)
  /-- HOST_READ_LINE_RESULT (R135): the host port's READ LINE returns. -/
  | hostReadLineResult
  /-- READ_TAG_RESULT (R157): the scanner's READ TAG on the die returns. -/
  | readTagResult (d : DieId)
  /-- PAUSE_ANSWER (R124): the die answers PAUSE with HELD (true) or NOT ERASING (false). -/
  | pauseAnswer (d : DieId) (held : Bool)
  /-- PROGRESS_INTERVAL_REACHED (R123): the erase's progress reaches 400 µs. -/
  | progressIntervalReached (d : DieId)
  /-- OPERATION_TIMEOUT (R120): the die's operation reaches its time-out. -/
  | operationTimeout (d : DieId)
  /-- PAUSE_TIMEOUT (R127): a PAUSE is not answered within 100 µs. -/
  | pauseTimeout (d : DieId)
  /-- DIE_RESET_TIMEOUT (R121): a DIE RESET is not answered within 1 ms. -/
  | dieResetTimeout (d : DieId)
  /-- DIE_READY_AFTER_RESET (R115): READY answers the reset-time DIE RESET. -/
  | dieReadyAfterReset (d : DieId)
  /-- DIE_READY_AFTER_TIMEOUT (R120): READY answers the DIE RESET of a time-out. -/
  | dieReadyAfterTimeout (d : DieId)
  /-- DIE_READY_AFTER_PAUSE_TIMEOUT (R127): READY answers the DIE RESET of a pause time-out. -/
  | dieReadyAfterPauseTimeout (d : DieId)
  /-- DIE_READY_AFTER_ABANDON (R128): READY answers the DIE RESET of an abandonment. -/
  | dieReadyAfterAbandon (d : DieId)
  /-- SCAN_END (R159): the start-up scan ends. -/
  | scanEnd
  /-- STATUS (R172), frame code hex 01. -/
  | status
  /-- FLUSH (R170), frame code hex 02. -/
  | flush
  /-- READ REGION (R151), frame code hex 10. -/
  | readRegion (index : Byte)
  /-- WRITE REGION (R148), frame code hex 11. -/
  | writeRegion (index : Byte) (first last : BitVec 16) (mode enabled : Byte)
  /-- FREEZE REGION (R150), frame code hex 12. -/
  | freezeRegion (index : Byte)
  /-- READ COUNTERS (R176), frame code hex 20. -/
  | readCounters
  /-- CLEAR COUNTERS (R176), frame code hex 21. -/
  | clearCounters
  /-- READ FAULT (R175), frame code hex 22. -/
  | readFault
  /-- MAP QUERY (R42), frame code hex 30. -/
  | mapQuery (sector : BitVec 16)
  /-- SECTOR QUERY (R42), frame code hex 31. -/
  | sectorQuery (phys : BitVec 16)
  /-- RELEASE SECTOR (R171), frame code hex 32. -/
  | releaseSector (sector : BitVec 16)
  /-- SET TIMING (R173), frame code hex 40. -/
  | setTiming (delay threshold : BitVec 16)
  /-- EVENT ENABLE (R173), frame code hex 41. -/
  | eventEnable (enables : Byte)
  /-- BAD_COMMAND_FRAME (R167): the bytes of a write transaction whose frame does not stand. -/
  | badCommandFrame (bytes : List Byte)
  deriving DecidableEq, Repr

end Sys2Proof
end

