-- ==== Sys2Proof/Decode.lean ====
section
/-!
DEFINITION. The cyclic check (R44), byte order (section 11.9), the management link's command frames
(R167, section 11.9): judging the bytes of a write transaction, and writing the frame of a command.
The opcode table gives no bits, so `decodeTableWord` spells no command.
-/

namespace Sys2Proof

/-- `n` shifts of the check register, with generator x^8 + x^2 + x + 1 (R44). -/
def crcShift : Nat → Byte → Byte
  | 0, r => r
  | n + 1, r => crcShift n (if r.msb then (r <<< 1) ^^^ 0x07#8 else r <<< 1)

/-- The check register after one more byte (R44). -/
def crcByte (r b : Byte) : Byte := crcShift 8 (r ^^^ b)

/-- The 8-bit cyclic check over bytes in ascending address order, initial value hex FF (R44). -/
def crc8 (bytes : List Byte) : Byte := bytes.foldl crcByte 0xFF#8

/-- `v` as `n` bytes, most significant byte first (section 11.9). -/
def beBytes : Nat → Nat → List Byte
  | 0, _ => []
  | n + 1, v => BitVec.ofNat 8 (v / 256 ^ n) :: beBytes n v

/-- The number that bytes stand for, most significant byte first (section 11.9). -/
def beNat (bytes : List Byte) : Nat := bytes.foldl (fun n b => n * 256 + b.toNat) 0

/-- Two bytes as a 16-bit number, the first the more significant. -/
def be16 (hi lo : Byte) : BitVec 16 := hi ++ lo

/-- The command a frame spells, from its command code and its parameter bytes; none where the code
is not one of the thirteen or the parameter length does not match it (Command Frames, R167). -/
def parseCommand (code : Byte) (params : List Byte) : Option Instr :=
  match code.toNat, params with
  | 0x01, [] => some .status
  | 0x02, [] => some .flush
  | 0x10, [i] => some (.readRegion i)
  | 0x11, [i, f1, f0, l1, l0, m, e] => some (.writeRegion i (be16 f1 f0) (be16 l1 l0) m e)
  | 0x12, [i] => some (.freezeRegion i)
  | 0x20, [] => some .readCounters
  | 0x21, [] => some .clearCounters
  | 0x22, [] => some .readFault
  | 0x30, [s1, s0] => some (.mapQuery (be16 s1 s0))
  | 0x31, [p1, p0] => some (.sectorQuery (be16 p1 p0))
  | 0x32, [s1, s0] => some (.releaseSector (be16 s1 s0))
  | 0x40, [d1, d0, t1, t0] => some (.setTiming (be16 d1 d0) (be16 t1 t0))
  | 0x41, [e] => some (.eventEnable e)
  | _, _ => none

/-- What the link finds when it checks a frame (R167). -/
inductive FrameVerdict where
  /-- The frame is answered CHECK: its check byte differs, it ends before its stated length, or it
  carries bytes beyond its check byte. -/
  | badCheck
  /-- The frame is answered INVALID: an unknown code, or a parameter length that does not match. -/
  | invalid (code : Byte)
  /-- The frame stands and spells a command. -/
  | command (c : Instr)
  deriving DecidableEq, Repr

/-- Judge the bytes of a write transaction (R167): command code, parameter length n, n parameter
bytes, and a check byte over all bytes before it. -/
def judgeFrame (bytes : List Byte) : FrameVerdict :=
  match bytes with
  | code :: n :: rest =>
    if rest.length ≠ n.toNat + 1 then .badCheck
    else if bytes.getLast? ≠ some (crc8 bytes.dropLast) then .badCheck
    else
      match parseCommand code rest.dropLast with
      | some c => .command c
      | none => .invalid code
  | _ => .badCheck

/-- The code and the parameter bytes of a management command; none for a command that is no frame
of the link (Command Frames, section 11.9). -/
def commandParts : Instr → Option (Byte × List Byte)
  | .status => some (0x01, [])
  | .flush => some (0x02, [])
  | .readRegion i => some (0x10, [i])
  | .writeRegion i f l m e => some (0x11, i :: beBytes 2 f.toNat ++ beBytes 2 l.toNat ++ [m, e])
  | .freezeRegion i => some (0x12, [i])
  | .readCounters => some (0x20, [])
  | .clearCounters => some (0x21, [])
  | .readFault => some (0x22, [])
  | .mapQuery n => some (0x30, beBytes 2 n.toNat)
  | .sectorQuery n => some (0x31, beBytes 2 n.toNat)
  | .releaseSector n => some (0x32, beBytes 2 n.toNat)
  | .setTiming d t => some (0x40, beBytes 2 d.toNat ++ beBytes 2 t.toNat)
  | .eventEnable e => some (0x41, [e])
  | .por | .rstAsserted | .rstReleased | .pfailAsserted | .pfailReleased | .flushFallingEdge
  | .hostRead .. | .hostWrite .. | .hostCycleAbandoned | .hostCycleEnd | .commitDelayExpiry _
  | .longStall | .heldWritePresented | .flushDrain | .laneTake _ | .laneReadLineResult _
  | .laneProgramLineResult .. | .relocationTake | .spareReport | .claimResult _
  | .copyReadLineResult | .copyProgramLineResult _ | .sealResult _ | .sourceRetireResult _
  | .targetRetireResult _ | .eraseStart _ | .eraseSectorResult .. | .countResult ..
  | .eraseRetireResult .. | .releaseProgramResult _ | .releaseRetireResult _
  | .hostReadLineResult | .readTagResult _ | .pauseAnswer .. | .progressIntervalReached _
  | .operationTimeout _ | .pauseTimeout _ | .dieResetTimeout _ | .dieReadyAfterReset _
  | .dieReadyAfterTimeout _ | .dieReadyAfterPauseTimeout _ | .dieReadyAfterAbandon _ | .scanEnd
  | .badCommandFrame _ => none

/-- A frame's bytes: the first bytes, then the check over them (section 11.9). -/
def withCheck (bytes : List Byte) : List Byte := bytes ++ [crc8 bytes]

/-- The command frame of a management command (section 11.9). -/
def encodeFrame (c : Instr) : Option (List Byte) :=
  (commandParts c).map fun p => withCheck (p.1 :: BitVec.ofNat 8 p.2.length :: p.2)

/-- The command a word spells by the table's bits. No row of spec/opcode_table.json gives bits
(its `fields` are empty and it has no `fixed`), so no word spells a command. -/
def decodeTableWord (_nbits _w : Nat) : Option Instr := none

end Sys2Proof
end

