-- ==== Sys2Proof/Machine/State.lean ====
section
/-!
DEFINITION. The state of the part, block by block as the spec's Blocks table names the owners
(00_scope, section 2), the medium of the two dies, and the queue of waiting commands; the reasons
a step can stop; and the state right after POR.
-/

namespace Sys2Proof.Machine

open Sys2Proof

/-! ### The power monitor (chapter 10) -/

/-- The operating state (R154), in the order in which the status block numbers it. -/
inductive OpState where
  | starting
  | running
  | powerdown
  | failed
  deriving DecidableEq, Repr

/-- The reason DEGRADED is set with (R39). -/
inductive DegradedReason where
  | spares
  | generation
  deriving DecidableEq, Repr

/-- The power monitor: operating state (R154), DEGRADED with its reason (R39; none is clear), and
the levels of PFAIL# and RST# as last seen (R154, R155; true is asserted). -/
structure Power where
  op : OpState
  degraded : Option DegradedReason
  pfail : Bool
  rst : Bool
  deriving DecidableEq, Repr

/-! ### The write-merge buffer (chapter 1) -/

/-- Who holds a COMMITTING entry (R1): the commit lane of a die, or, with the fold mark, the
relocation engine. -/
inductive Taker where
  | lane (d : DieId)
  | fold
  deriving DecidableEq, Repr

/-- The state of a non-FREE entry with the items present in it (R1): the age while OPEN, the seal
order while SEALED or COMMITTING, the taker (the fold mark) while COMMITTING. -/
inductive Stage where
  | opened (age : Nat)
  | sealed (order : Nat)
  | committing (order : Nat) (taker : Taker)
  deriving DecidableEq, Repr

/-- A non-FREE line entry (R1). `held` has one place for each of the 32 byte positions: a byte
where the position is in the byte mask, none where it is not. -/
structure Entry where
  line : LineNo
  held : List (Option Byte)
  openOrder : Nat
  stage : Stage
  deriving DecidableEq, Repr

/-- The write-merge buffer: its non-FREE entries in ascending open order (the other of the 32 are
FREE and carry nothing, R1), the two order counters (R2), the flush boundary (R12) and the commit
delay in µs (R8). -/
structure Wmb where
  entries : List Entry
  openCounter : Nat
  sealCounter : Nat
  boundary : Option Nat
  commitDelay : BitVec 16
  deriving DecidableEq, Repr

/-! ### The sector map and sector accounting (chapter 2) -/

/-- The reason of a relocation (R77). -/
inductive RelocReason where
  | backing
  | overwrite
  | failure
  deriving DecidableEq, Repr

/-- The relocation field of a map entry (R24, R27). -/
inductive RelocField where
  | absent
  | queued (reason : RelocReason)
  | inFlight (target : Option Phys) (backingPending : Bool)
  deriving DecidableEq, Repr

/-- The binding of a BACKED sector with its claim generation (R24, R26). -/
structure Binding where
  phys : Phys
  gen : Gen
  deriving DecidableEq, Repr

/-- A map entry (R24). A binding of none is UNBACKED. -/
structure MapEntry where
  binding : Option Binding
  reloc : RelocField
  releasing : Bool
  suspect : Bool
  deriving DecidableEq, Repr

/-- A map entry as POR and RST# leave it (R24, R41). -/
def MapEntry.unbacked : MapEntry :=
  { binding := none, reloc := .absent, releasing := false, suspect := false }

/-- The reason of a retirement (R38). -/
inductive RetireReason where
  | program
  | erase
  | tag
  deriving DecidableEq, Repr

/-- The six sets of physical sectors (R32), in membership order. -/
inductive Membership where
  | mapped
  | target
  | spare
  | queuedForErase
  | erasing
  | retired
  deriving DecidableEq, Repr

/-- The record of a physical sector: its set (R32) and its known erase count (R33). -/
structure PhysRec where
  membership : Membership
  count : EraseCount
  deriving DecidableEq, Repr

/-- A record of the erase queue (R37). -/
structure EraseRecord where
  phys : Phys
  count : EraseCount
  deriving DecidableEq, Repr

/-- A record of the retired list (R38). -/
structure RetiredRecord where
  phys : Phys
  reason : RetireReason
  deriving DecidableEq, Repr

/-- Sector accounting: the record of each physical sector (none outside the six sets, R41), the
spare pool front first (R34), the erase queue oldest first (R37) and the retired list (R38). -/
structure Accounting where
  recs : Table PhysRec
  pool : List Phys
  eraseQueue : List EraseRecord
  retired : List RetiredRecord
  deriving DecidableEq, Repr

/-! ### Tag fields and die operations (chapters 3 and 7) -/

/-- The contents of a tag field (R43). -/
inductive TagContents where
  | count (n : EraseCount)
  | claim (sector : Sector) (gen : Gen)
  | sealing (gen : Gen)
  | release (gen : Gen)
  | retire (reason : RetireReason)
  deriving DecidableEq, Repr

/-- The blocks that send requests to a die scheduler (R116), in the order of the requester codes. -/
inductive Requester where
  | hostPort
  | lane
  | relocation
  | eraseSlot
  | release
  | scanner
  deriving DecidableEq, Repr

/-- A die operation that a block requests, with what it carries (R112). PAUSE, CONTINUE and DIE
RESET are the scheduler's own. -/
inductive DieOp where
  | readLine (phys : Phys) (pos : Pos)
  | readTag (phys : Phys)
  | programLine (phys : Phys) (pos : Pos) (data : LineData)
  | programTag (phys : Phys) (contents : TagContents)
  | eraseSector (phys : Phys)
  deriving DecidableEq, Repr

/-- A request at a die scheduler (R116): requester, operation, time of arrival in µs. Its class
follows from the requester and the operation. -/
structure Request where
  requester : Requester
  op : DieOp
  arrival : Nat
  deriving DecidableEq, Repr

/-- The erase a die has taken, with the erase record of R122: progress and erasing time in µs, and
pauses taken. -/
structure EraseRun where
  phys : Phys
  progress : Nat
  erasing : Nat
  pauses : Nat
  deriving DecidableEq, Repr

/-- Why DIE RESET was issued, which decides what READY brings: a reset of the part (R115), the
time-out of an operation and whether it was a read in a hold (R120), a pause time-out (R127), an
abandonment (R128). -/
inductive ResetCause where
  | partReset
  | timeout (requester : Requester) (op : DieOp) (heldErase : Bool)
  | pauseTimeout
  | abandonment
  deriving DecidableEq, Repr

/-- The die state (R114) with the operation in progress, the time in µs since the die took it or
since PAUSE or DIE RESET was issued (R119), the erase record (R122), whether an abandonment waits
(R128), and in RESETTING whether a READY has come in FAILED and been disregarded (R129). In PAUSING
`run` is none once the erase's own result has been delivered (R114, R122). -/
inductive DieState where
  | idle
  | reading (r : Request) (time : Nat)
  | programming (r : Request) (time : Nat)
  | erasing (run : EraseRun)
  | pausing (phys : Phys) (run : Option EraseRun) (abandon : Bool) (time : Nat)
  | held (run : EraseRun) (abandon : Bool)
  | heldReading (run : EraseRun) (r : Request) (abandon : Bool) (time : Nat)
  | resetting (cause : ResetCause) (time : Nat) (answered : Bool)
  deriving DecidableEq, Repr

/-- A die scheduler: die state (R114), waiting requests in order of arrival (R116), offline mark
(R121), and whether its report to the erase engine that the die is IDLE with no request waiting (R101,
R117) still stands. The report stands while the die stays IDLE, and past the taking of a request until
time passes or the die's state changes again (log 29). -/
structure Die where
  state : DieState
  waiting : List Request
  offline : Bool
  reported : Bool
  deriving DecidableEq, Repr

/-! ### The commit lanes (chapter 4) -/

/-- A commit lane (R60). `entry` names the WMB entry the lane has taken by its open order; the
entry itself stays in the WMB, COMMITTING under the lane. -/
inductive Lane where
  | idle
  | reading (entry : Nat) (phys : Phys)
  | programming (entry : Nat) (phys : Phys) (medium target : LineData)
  deriving DecidableEq, Repr

/-! ### The relocation engine (chapter 5) -/

/-- A record of the relocation queue (R77). -/
structure RelocRecord where
  sector : Sector
  reason : RelocReason
  deriving DecidableEq, Repr

/-- The items of a relocation in flight that every state but IDLE holds (R79). The folded list is
the WMB's entries with the fold mark, in ascending open order. -/
structure Job where
  sector : Sector
  reason : RelocReason
  source : Option Phys
  failedTargets : Nat
  deriving DecidableEq, Repr

/-- The relocation engine's state with its items (R79). SEALING is `sealing` before the switch and
`retiringSource` after it (R88). -/
inductive Engine where
  | idle
  | awaitingSpare (j : Job)
  | claiming (j : Job) (target : Phys) (gen : Gen) (foldPending : Bool)
  | copying (j : Job) (target : Phys) (gen : Gen) (pos : Pos)
  | sealing (j : Job) (target : Phys) (gen : Gen)
  | retiringSource (j : Job) (old : Phys)
  | retiringTarget (j : Job) (target : Phys) (gen : Gen) (reason : RetireReason)
  deriving DecidableEq, Repr

/-- The relocation engine's block: the relocation queue head first (R77), the engine (R79) and the
generation counter (R54; none while it holds no value). -/
structure Relocation where
  queue : List RelocRecord
  engine : Engine
  generation : Option Gen
  deriving DecidableEq, Repr

/-! ### The erase engine (chapter 6) -/

/-- The items of an erase slot that is not IDLE (R99): physical sector, known count, and whether
the start class is URGENT. -/
structure SlotItems where
  phys : Phys
  count : EraseCount
  urgent : Bool
  deriving DecidableEq, Repr

/-- An erase slot (R99). -/
inductive Slot where
  | idle
  | erasing (i : SlotItems)
  | counting (i : SlotItems)
  | retiring (i : SlotItems) (reason : RetireReason)
  deriving DecidableEq, Repr

/-- The erase engine: a slot for each die and the pause time-out list (R99). -/
structure EraseEngine where
  slots : PerDie Slot
  pauseList : List Phys
  deriving DecidableEq, Repr

/-! ### The host port (chapter 8) and the region table (chapter 9) -/

/-- What a host cycle asks for. -/
inductive CycleKind where
  | read
  | write (data : HostWord)
  deriving DecidableEq, Repr

/-- A host cycle on the bus (R131, R132). -/
structure HostCycle where
  addr : WordAddr
  low : Bool
  high : Bool
  kind : CycleKind
  deriving DecidableEq, Repr

/-- A cycle the port holds with HRDY low, its stall in µs, and whether LONG STALLS has counted it
(R143). -/
structure HeldCycle where
  cycle : HostCycle
  stall : Nat
  counted : Bool
  deriving DecidableEq, Repr

/-- What a read in READING keeps (R134): the physical sector and position its READ LINE names, and
the overlay bytes of its two positions. -/
structure ReadAsk where
  phys : Phys
  pos : Pos
  lowByte : Option Byte
  highByte : Option Byte
  deriving DecidableEq, Repr

/-- Whose read a port in READING waits for: a cycle's, or one the host has abandoned (R142), with
the cycle that has arrived behind it, if any (R131). -/
inductive ReadFor where
  | cycle (h : HeldCycle)
  | abandoned (next : Option HeldCycle)
  deriving DecidableEq, Repr

/-- The host port (R131). IDLE is `idle` (no cycle), `completed` (a completed cycle the host has
not ended, with the word driven on HD[15:0] for a read) or `inReset` (a cycle presented while RST#
is asserted, which the port has not taken). -/
inductive Port where
  | idle
  | completed (c : HostCycle) (hd : Option HostWord)
  | inReset (c : HostCycle)
  | reading (who : ReadFor) (ask : ReadAsk)
  | writing (h : HeldCycle)
  | holding (h : HeldCycle)
  deriving DecidableEq, Repr

/-- The host port's block: the port and the stall threshold in µs (R143). -/
structure HostPort where
  port : Port
  threshold : BitVec 16
  deriving DecidableEq, Repr

/-- The protection modes (R145), in the order of their codes. -/
inductive Mode where
  | normal
  | clearOnly
  | readOnly
  | noAccess
  deriving DecidableEq, Repr

/-- A protection region entry (R145). -/
structure Region where
  first : Page
  last : Page
  mode : Mode
  enabled : Bool
  frozen : Bool
  deriving DecidableEq, Repr

/-- A region entry as POR leaves it (R145). -/
def Region.atPor : Region :=
  { first := 0, last := 0, mode := .normal, enabled := false, frozen := false }

/-! ### The start-up scanner (chapter 10) -/

/-- The scan's progress on a die (R156). While READING one READ TAG is outstanding, for `next`. -/
inductive Progress where
  | waiting
  | reading (next : Phys)
  | done
  deriving DecidableEq, Repr

/-- The classification of a judged physical sector (R157). -/
inductive ClassKind where
  | retired (reason : RetireReason)
  | eraseQueue
  | spare
  | candidate
  deriving DecidableEq, Repr

/-- A classification with its known count (R156). -/
structure Classified where
  kind : ClassKind
  count : EraseCount
  deriving DecidableEq, Repr

/-- A candidate for a logical sector: a physical sector and its generation (R156). -/
structure Candidate where
  phys : Phys
  gen : Gen
  deriving DecidableEq, Repr

/-- The start-up scanner (R156): classifications by physical sector, candidates by logical sector. -/
structure Scanner where
  progress : PerDie Progress
  judged : Nat
  classes : Table Classified
  candidates : Table Candidate
  highest : Option Gen
  deriving DecidableEq, Repr

/-- The scanner at a reset (R156). -/
def Scanner.atReset : Scanner :=
  { progress := ⟨.waiting, .waiting⟩, judged := 0, classes := [], candidates := [], highest := none }

/-! ### The management link (chapter 11) -/

/-- The long commands (R169). -/
inductive LongCommand where
  | flush
  | release (sector : Sector)
  deriving DecidableEq, Repr

/-- The last long command and whether its outcome is DONE (R169). The link is COMMAND IN PROGRESS
while the outcome is IN PROGRESS, and READY otherwise. -/
structure LastLong where
  command : LongCommand
  done : Bool
  deriving DecidableEq, Repr

/-- A release at work on the medium (R30, R31): the sector, its physical sector, and whether the
RETIRE program of a failed mark is the one outstanding. -/
structure Release where
  sector : Sector
  phys : Phys
  retiring : Bool
  deriving DecidableEq, Repr

/-- A fault record's kind with the fields that kind carries (R174). -/
inductive RecordBody where
  | regionWrite (line : LineNo) (region : Fin 16)
  | regionRead (line : LineNo) (region : Fin 16)
  | degradedWrite (line : LineNo)
  | clearOnlyLoss (line : LineNo) (region : Fin 16)
  | relocationLoss (sector : Sector) (count : Nat)
  | programFail (phys : Phys) (line : Option LineNo)
  | eraseFail (phys : Phys)
  | pauseTimeout (die : DieId) (phys : Phys)
  | garbledTag (phys : Phys)
  | releaseDiscard (sector : Sector) (count : Nat)
  | degradedEntered (count : Nat) (reason : DegradedReason)
  | dieOffline (die : DieId)
  deriving DecidableEq, Repr

/-- A fault record in the queue, with its sequence number (R174). -/
structure FaultRecord where
  sequence : BitVec 16
  body : RecordBody
  deriving DecidableEq, Repr

/-- The ten counters (R176), in the order of the Counters table. -/
structure Counters where
  hostReads : BitVec 32
  hostWrites : BitVec 32
  longStalls : BitVec 32
  refusedWrites : BitVec 32
  linesCommitted : BitVec 32
  relocationsDone : BitVec 32
  linesLost : BitVec 32
  erasesDone : BitVec 32
  pauses : BitVec 32
  sectorsRetired : BitVec 32
  deriving DecidableEq, Repr

/-- All ten counters at 0 (R176). -/
def Counters.zero : Counters :=
  { hostReads := 0, hostWrites := 0, longStalls := 0, refusedWrites := 0, linesCommitted := 0
    relocationsDone := 0, linesLost := 0, erasesDone := 0, pauses := 0, sectorsRetired := 0 }

/-- The management link: last long command (R169), response buffer (R167), fault queue oldest
first, overflow count and sequence counter (R174), counters (R176), attention enables (R173). -/
structure Link where
  lastLong : Option LastLong
  response : List Byte
  faults : List FaultRecord
  overflow : BitVec 8
  sequence : BitVec 16
  counters : Counters
  faultAttention : Bool
  degradedAttention : Bool
  deriving DecidableEq, Repr

/-! ### The whole part -/

/-- The bytes of the medium of both dies, by address (assumption log 3); an unlisted byte is erased,
hex FF. -/
abbrev Memory := List Host.Cell

/-- The state of the part. `pending` is the queue of waiting commands, first in first out. `now` and
`draws` are the model's own: the time since POR in µs, and the number of free values drawn. -/
structure State where
  pending : List Instr
  power : Power
  wmb : Wmb
  map : Table MapEntry
  acct : Accounting
  lanes : PerDie Lane
  reloc : Relocation
  erase : EraseEngine
  dies : PerDie Die
  host : HostPort
  regions : Table Region
  scan : Scanner
  release : Option Release
  link : Link
  medium : Memory
  now : Nat
  draws : Nat
  deriving DecidableEq, Repr

/-- Why the machine could stop with a fault. It has no constructor: the spec gives every command of
the table an effect, and no number in the state can name a sector, a die or a byte the part lacks. -/
inductive Fault where
  deriving DecidableEq, Repr

/-- Why a command could be refused. -/
inductive Refusal where
  /-- Raised by exec's arm of a command that has no meaning yet; no arm does. Safe: the machine
  stops where the part goes on. -/
  | notModelled (mnemonic : String)
  deriving DecidableEq, Repr

/-- The response frame NONE (R167, section 11.9): code and command hex FF, length 0, check. -/
def noResponse : List Byte := withCheck [0xFF, 0xFF, 0x00]

/-- A die whose scheduler has just issued the reset-time DIE RESET (R115). -/
def Die.atReset : Die :=
  { state := .resetting .partReset 0 false, waiting := [], offline := false, reported := false }

/-- The part right after POR (R155), on a medium of which nothing is listed, with RST# and PFAIL#
released. -/
def State.reset : State :=
  { pending := []
    power := { op := .starting, degraded := none, pfail := false, rst := false }
    wmb := { entries := [], openCounter := 0, sealCounter := 0, boundary := none,
             commitDelay := 2000 }
    map := []
    acct := { recs := [], pool := [], eraseQueue := [], retired := [] }
    lanes := ⟨.idle, .idle⟩
    reloc := { queue := [], engine := .idle, generation := none }
    erase := { slots := ⟨.idle, .idle⟩, pauseList := [] }
    dies := ⟨Die.atReset, Die.atReset⟩
    host := { port := .idle, threshold := 50 }
    regions := []
    scan := Scanner.atReset
    release := none
    link := { lastLong := none, response := noResponse, faults := [], overflow := 0, sequence := 0
              counters := Counters.zero, faultAttention := true, degradedAttention := true }
    medium := []
    now := 0
    draws := 0 }

end Sys2Proof.Machine
end

