-- ==== Sys2Proof/Machine/Table.lean ====
section
/-!
DEFINITION. Operations on sparse tables and on per-key records with a default. A table in canonical
form has strictly rising keys and lists no default; a store keeps that form, so equal tables are
equal data.
-/

namespace Sys2Proof.Machine

open Sys2Proof

/-- What the table lists at a key. -/
def Table.find {α : Type} (t : Table α) (k : Nat) : Option α :=
  match t with
  | [] => none
  | c :: rest => if c.1 = k then some c.2 else Table.find rest k

/-- The table without a key. -/
def Table.drop {α : Type} (t : Table α) (k : Nat) : Table α := t.filter fun c => c.1 ≠ k

/-- A pair put before the first greater key. -/
def Table.insert {α : Type} (k : Nat) (v : α) : Table α → Table α
  | [] => [(k, v)]
  | c :: rest => if k < c.1 then (k, v) :: c :: rest else c :: Table.insert k v rest

/-- The table with a value at a key. -/
def Table.put {α : Type} (t : Table α) (k : Nat) (v : α) : Table α :=
  Table.insert k v (Table.drop t k)

/-- The value at a key, where an unlisted key means `d`. -/
def Table.read {α : Type} (d : α) (t : Table α) (k : Nat) : α := (Table.find t k).getD d

/-- The table with a value at a key, where an unlisted key means `d`: storing `d` removes the key. -/
def Table.store {α : Type} [DecidableEq α] (d : α) (t : Table α) (k : Nat) (v : α) : Table α :=
  if v = d then Table.drop t k else Table.put t k v

/-- The keys rise strictly. -/
abbrev Table.Sorted {α : Type} (t : Table α) : Prop := (t.map Prod.fst).Pairwise (· < ·)

/-- Canonical form with default `d`: keys rise strictly and no listed value is `d`. -/
abbrev Table.Canonical {α : Type} [DecidableEq α] (d : α) (t : Table α) : Prop :=
  Table.Sorted t ∧ ∀ c ∈ t, c.2 ≠ d

end Sys2Proof.Machine
end

