-- ==== Sys2Proof/Machine/Operands.lean ====
section
/-!
DEFINITION. The quantities formed from operands: line, page, sector and byte positions of a host
cycle (R132), the die of a physical sector, the bytes of a line and of a byte mask, and the fixed
numbers of the part.
-/

namespace Sys2Proof.Machine

open Sys2Proof

/-! ### Fixed numbers -/

/-- Line entries of the WMB (R1). -/
def wmbSize : Nat := 32
/-- In-use count at which an opening seals the oldest OPEN entry (R10). -/
def highWater : Nat := 24
/-- The spare pool's low-water mark (R36). -/
def lowWater : Nat := 4
/-- The progress interval in µs (R122). -/
def progressInterval : Nat := 400
/-- Pauses taken in one erase at most (R114, R122). -/
def pauseBudget : Nat := 48
/-- Time-out of READ LINE and READ TAG in µs (R112). -/
def readLimit : Nat := 20
/-- Time-out of PROGRAM LINE and PROGRAM TAG in µs (R112). -/
def programLimit : Nat := 1000
/-- Time-out of ERASE SECTOR in µs of erasing time (R112). -/
def eraseLimit : Nat := 5000000
/-- Time-out of PAUSE in µs (R112). -/
def pauseLimit : Nat := 100
/-- Time-out of DIE RESET in µs (R112). -/
def resetLimit : Nat := 1000
/-- Records the fault queue holds (R174). -/
def faultQueueSize : Nat := 16
/-- Targets a relocation uses at most (R90). -/
def maxTargets : Nat := 3
/-- The generation that no claim carries: the counter's end of life (R55). -/
def lastGeneration : Gen := 0xFFFFFFFF#32

/-! ### Host addresses (R132) -/

/-- The line of a word address: divided by 16. -/
def lineOf (a : WordAddr) : LineNo := ⟨a.toNat / 16, by have := a.isLt; omega⟩

/-- The protection page of a word address: divided by 2048. -/
def pageOf (a : WordAddr) : Page := ⟨a.toNat / 2048, by have := a.isLt; omega⟩

/-- The low lane's byte position within the line; the high lane's is one more. -/
def lowPosition (a : WordAddr) : Nat := 2 * (a.toNat % 16)

/-- The logical sector of a line: divided by 2048. -/
def sectorOf (n : LineNo) : Sector := ⟨n.val / 2048, by omega⟩

/-- The position of a line within its sector: modulo 2048. -/
def posOf (n : LineNo) : Pos := ⟨n.val % 2048, by omega⟩

/-- The protection page of a line: divided by 128. -/
def pageOfLine (n : LineNo) : Page := ⟨n.val / 128, by omega⟩

/-- The logical line at a position of a sector: sector times 2048, plus position (R85). -/
def lineAt (l : Sector) (p : Pos) : LineNo := ⟨l.val * 2048 + p.val, by omega⟩

/-! ### Physical sectors -/

/-- The die of a physical sector: 0 to 527 on die 0, 528 to 1055 on die 1. -/
def dieOf (p : Phys) : DieId := if p.val < 528 then .die0 else .die1

/-- The lowest physical sector of a die (R156). -/
def firstPhys : DieId → Phys
  | .die0 => 0
  | .die1 => 528

/-- The physical sector after `p` on the same die; none after the die's last, 527 or 1055 (R156). -/
def nextPhys (p : Phys) : Option Phys :=
  if h : p.val + 1 < 1056 then
    if p.val = 527 then none else some ⟨p.val + 1, h⟩
  else none

/-! ### Bytes of lines and of byte masks -/

/-- The byte of a line at a position. -/
def lineByte (l : LineData) (i : Nat) : Byte := l.getD i 0xFF#8

/-- What an entry holds at a position: a byte where the position is in its byte mask. -/
def heldByte (h : List (Option Byte)) (i : Nat) : Option Byte := h.getD i none

/-- A line of 32 bytes of hex FF. -/
def blankLine : LineData := List.replicate 32 0xFF#8

/-- A line with an entry's bytes laid over it (R64, R85). -/
def layOver (h : List (Option Byte)) (l : LineData) : LineData :=
  (List.range 32).map fun i => (heldByte h i).getD (lineByte l i)

/-- An entry's bytes with a write's merged in (R5): each presented byte replaces or is added. -/
def mergeHeld (new old : List (Option Byte)) : List (Option Byte) :=
  (List.range 32).map fun i => (heldByte new i).or (heldByte old i)

/-- Whether the byte mask holds all 32 positions (R5, R9). -/
def fullMask (h : List (Option Byte)) : Bool := (List.range 32).all fun i => (heldByte h i).isSome

/-- The bit test (R64): no bit is 1 in the target where it is 0 in the medium. -/
def bitTest (medium target : LineData) : Bool :=
  (List.range 32).all fun i => lineByte target i &&& ~~~ lineByte medium i == 0#8

/-- The bytes a host write presents, by position (R132): the low lane HD[7:0], the high lane
HD[15:8]. -/
def writeBytes (c : HostCycle) (data : HostWord) : List (Option Byte) :=
  (List.range 32).map fun i =>
    if c.low && i == lowPosition c.addr then some (data.extractLsb' 0 8)
    else if c.high && i == lowPosition c.addr + 1 then some (data.extractLsb' 8 8)
    else none

/-- The word a read returns: a lane that is not enabled returns hex FF on its half (R134). -/
def readWord (c : HostCycle) (lowByte highByte : Byte) : HostWord :=
  (if c.high then highByte else 0xFF#8) ++ (if c.low then lowByte else 0xFF#8)

/-! ### Requests (R116) -/

/-- The physical sector an operation names. -/
def DieOp.phys : DieOp → Phys
  | .readLine p _ | .readTag p | .programLine p _ _ | .programTag p _ | .eraseSector p => p

/-- Whether an operation is a read. -/
def DieOp.isRead : DieOp → Bool
  | .readLine .. | .readTag _ => true
  | .programLine .. | .programTag .. | .eraseSector _ => false

/-- Whether a request is of class HOST READ. -/
def Request.isHostRead (r : Request) : Bool := r.requester == .hostPort

/-- Whether a request is of class ERASE START. -/
def Request.isEraseStart (r : Request) : Bool :=
  match r.op with
  | .eraseSector _ => true
  | .readLine .. | .readTag _ | .programLine .. | .programTag .. => false

/-- Whether a request is of class INTERNAL. -/
def Request.isInternal (r : Request) : Bool := !r.isHostRead && !r.isEraseStart

/-- A saturating increase of a 32-bit counter (R176). -/
def satAdd (c : BitVec 32) (n : Nat) : BitVec 32 :=
  if c.toNat + n < 4294967295 then c + BitVec.ofNat 32 n else 0xFFFFFFFF#32

/-- The next erase count, held at hex FFFFFF (R33). -/
def nextCount (c : EraseCount) : EraseCount := if c = 0xFFFFFF#24 then c else c + 1#24

end Sys2Proof.Machine
end

