-- ==== Sys2Proof/Machine/Tag.lean ====
section
/-!
DEFINITION. The tag area (chapter 3, section 11.9): the five fields' places and bytes, the check
each carries, and the judgement blank, garbled or valid.
-/

namespace Sys2Proof.Machine

open Sys2Proof

/-- The five tag fields (R43). -/
inductive TagField where
  | count
  | claim
  | sealing
  | release
  | retire
  deriving DecidableEq, Repr

/-- The first byte of a field within the tag area (section 11.9). -/
def TagField.offset : TagField → Nat
  | .count => 0
  | .claim => 8
  | .sealing => 16
  | .release => 24
  | .retire => 32

/-- The length of a field, check included (section 11.9). -/
def TagField.length : TagField → Nat
  | .count => 4
  | .claim => 7
  | .sealing => 5
  | .release => 5
  | .retire => 3

/-- The field that contents belong to. -/
def TagContents.field : TagContents → TagField
  | .count _ => .count
  | .claim .. => .claim
  | .sealing _ => .sealing
  | .release _ => .release
  | .retire _ => .retire

/-- The code of a retire reason: hex 01 PROGRAM, 02 ERASE, 03 TAG (section 11.9). -/
def RetireReason.code : RetireReason → Byte
  | .program => 0x01
  | .erase => 0x02
  | .tag => 0x03

/-- The retire reason a byte codes. -/
def retireReasonOf (b : Byte) : Option RetireReason :=
  if b = 0x01#8 then some .program
  else if b = 0x02#8 then some .erase
  else if b = 0x03#8 then some .tag
  else none

/-- The bytes of a field's contents, without its check (section 11.9). -/
def TagContents.body : TagContents → List Byte
  | .count n => beBytes 3 n.toNat
  | .claim l g => beBytes 2 l.val ++ beBytes 4 g.toNat
  | .sealing g => beBytes 4 g.toNat
  | .release g => beBytes 4 g.toNat
  | .retire r => [0xA5#8, r.code]

/-- The bytes of a field, its check last (R43, R44). -/
def TagContents.bytes (c : TagContents) : List Byte := withCheck c.body

/-- A generation that a valid CLAIM, SEAL or RELEASE may carry: 1 to hex FFFFFFFE (R43, R45). -/
def genInRange (g : Gen) : Bool := g != 0#32 && g != lastGeneration

/-- The contents that a field's bytes before the check give, where they lie within the values of
the Sector Tag Fields table (R43, R45 item 3). -/
def parseField (f : TagField) (body : List Byte) : Option TagContents :=
  match f with
  | .count => some (.count (BitVec.ofNat 24 (beNat body)))
  | .claim =>
    let sector := beNat (body.take 2)
    let gen : Gen := BitVec.ofNat 32 (beNat (body.drop 2))
    if h : sector < 1024 then
      if genInRange gen then some (.claim ⟨sector, h⟩ gen) else none
    else none
  | .sealing =>
    let gen : Gen := BitVec.ofNat 32 (beNat body)
    if genInRange gen then some (.sealing gen) else none
  | .release =>
    let gen : Gen := BitVec.ofNat 32 (beNat body)
    if genInRange gen then some (.release gen) else none
  | .retire =>
    if body.head? = some 0xA5#8 then (retireReasonOf (body.getD 1 0)).map .retire else none

/-- The judgement of a tag field (R45). -/
inductive Judged where
  | blank
  | garbled
  | valid (c : TagContents)
  deriving DecidableEq, Repr

/-- Judge a field's bytes, check included, in the order of R45. -/
def judgeField (f : TagField) (bytes : List Byte) : Judged :=
  if bytes.all (· == 0xFF#8) then .blank
  else if bytes.getLast? ≠ some (crc8 bytes.dropLast) then .garbled
  else
    match parseField f bytes.dropLast with
    | some c => .valid c
    | none => .garbled

/-- The bytes of a field within the 64 bytes of a tag area. -/
def fieldBytes (f : TagField) (tag : List Byte) : List Byte := (tag.drop f.offset).take f.length

/-- The judgement of a field of a tag area, each field on its own (R45). -/
def judgeTag (tag : List Byte) (f : TagField) : Judged := judgeField f (fieldBytes f tag)

/-- The generation of a valid CLAIM. -/
def Judged.claimGen : Judged → Option Gen
  | .valid (.claim _ g) => some g
  | _ => none

/-- Whether a valid SEAL is matched (R46): the CLAIM of the same tag is valid and carries the same
generation. -/
def sealMatched (tag : List Byte) : Bool :=
  match judgeTag tag .claim, judgeTag tag .sealing with
  | .valid (.claim _ g), .valid (.sealing g') => g == g'
  | _, _ => false

/-- Whether a valid RELEASE is matched (R46). -/
def releaseMatched (tag : List Byte) : Bool :=
  match judgeTag tag .claim, judgeTag tag .release with
  | .valid (.claim _ g), .valid (.release g') => sealMatched tag && g == g'
  | _, _ => false

/-- The judgement the scanner classifies by: an unmatched SEAL or RELEASE is treated as garbled
(R46, R157). -/
def scanJudge (tag : List Byte) (f : TagField) : Judged :=
  match f, judgeTag tag f with
  | .sealing, .valid c => if sealMatched tag then .valid c else .garbled
  | .release, .valid c => if releaseMatched tag then .valid c else .garbled
  | _, j => j

end Sys2Proof.Machine
end

