-- ==== Sys2Proof/Machine/Medium.lean ====
section
/-!
DEFINITION. The medium of the two dies: what the stored bytes are, and what reads, programs and
erases do to them, whole (R47) and cut short or failed (R56, R57, R58).
-/

namespace Sys2Proof.Machine

open Sys2Proof

/-- What an unlisted byte of the medium reads as: erased. DESIGN CHOICE (log 2). -/
def erasedByte : Byte := 0xFF#8

/-- Bytes of a physical sector: 64K of main array, then 64 of tag area (R43). -/
def sectorSpan : Nat := 65600

/-- The address of a line of a physical sector's main array. -/
def lineAddr (p : Phys) (pos : Pos) : Nat := p.val * sectorSpan + pos.val * 32

/-- The address of a physical sector's tag area. -/
def tagAddr (p : Phys) : Nat := p.val * sectorSpan + 65536

/-- The canonical form of the medium: addresses rise strictly and no listed byte is erased. -/
abbrev Memory.wf (m : Memory) : Prop := Table.Canonical erasedByte m

/-- The stored byte at an address. -/
def Memory.byte (m : Memory) (a : Nat) : Byte := Table.read erasedByte m a

/-- The medium with one byte stored. -/
def Memory.setByte (m : Memory) (a : Nat) (b : Byte) : Memory := Table.store erasedByte m a b

/-- `n` stored bytes from an address. -/
def Memory.bytes (m : Memory) (a n : Nat) : List Byte := (List.range n).map fun i => m.byte (a + i)

/-- The medium with bytes stored from an address. -/
def Memory.setBytes (m : Memory) (a : Nat) : List Byte → Memory
  | [] => m
  | b :: rest => Memory.setBytes (m.setByte a b) (a + 1) rest

/-- READ LINE (R47, R112). -/
def Memory.line (m : Memory) (p : Phys) (pos : Pos) : LineData := m.bytes (lineAddr p pos) 32

/-- READ TAG (R47, R112): the 64 bytes of the tag area. -/
def Memory.tag (m : Memory) (p : Phys) : List Byte := m.bytes (tagAddr p) 64

/-- The address and the bytes that a program names; none for a read or an erase. -/
def DieOp.image : DieOp → Option (Nat × List Byte)
  | .programLine p pos data => some (lineAddr p pos, (List.range 32).map (lineByte data))
  | .programTag p c => some (tagAddr p + c.field.offset, c.bytes)
  | .readLine .. | .readTag _ | .eraseSector _ => none

/-- What a whole program leaves (R47): each bit that the contents hold at 0 is cleared. -/
def programmed (old want : List Byte) : List Byte := List.zipWith (· &&& ·) old want

/-- What a cut or failed program leaves (R56): each bit it was to clear is 0 or still 1. The bits
kept at 1 are free values. -/
def partProgrammed (draw a : Nat) (old want : List Byte) : List Byte :=
  (List.range want.length).map fun i =>
    lineByte old i &&& (lineByte want i ||| Config.keptBits draw (a + i))

/-- Whether a tag field may be left so by a cut or failed program (R57): blank, garbled, or valid
with exactly the contents requested. -/
def tornTagAllowed (c : TagContents) (bytes : List Byte) : Bool :=
  match judgeField c.field bytes with
  | .blank | .garbled => true
  | .valid c' => c' == c

/-- The medium after a program that was cut short or ended FAIL (R56, R57). -/
def Memory.cutProgram (m : Memory) (draw : Nat) (op : DieOp) : Memory :=
  match op with
  | .programLine p pos data =>
    let a := lineAddr p pos
    let want := (List.range 32).map (lineByte data)
    m.setBytes a (partProgrammed draw a (m.bytes a 32) want)
  | .programTag p c =>
    let a := tagAddr p + c.field.offset
    let left := partProgrammed draw a (m.bytes a c.bytes.length) c.bytes
    if tornTagAllowed c left then m.setBytes a left else m
  | .readLine .. | .readTag _ | .eraseSector _ => m

/-- The medium and the result of a program (R47). With `ok` the die clears every bit it is to
clear and compares: PASS if the field or line then equals the contents. Without it the die reports
FAIL and leaves what R56 and R57 allow. -/
def Memory.program (m : Memory) (draw : Nat) (op : DieOp) (ok : Bool) : Memory × Bool :=
  match op.image with
  | none => (m, ok)
  | some (a, want) =>
    if ok then
      let new := programmed (m.bytes a want.length) want
      (m.setBytes a new, new == want)
    else (m.cutProgram draw op, false)

/-- Whether an address lies in a physical sector. -/
def inSector (p : Phys) (a : Nat) : Bool :=
  p.val * sectorSpan ≤ a && a < p.val * sectorSpan + sectorSpan

/-- ERASE SECTOR that passes (R47): every bit of the main array and of the tag area is 1. -/
def Memory.eraseSector (m : Memory) (p : Phys) : Memory := m.filter fun c => !inSector p c.1

/-- A byte of the main array after a cut erase (R58): each bit at its old value or at 1. -/
def partErased (draw a : Nat) (old : Byte) : Byte := old ||| Config.keptBits draw a

/-- A tag field after an erase that was cut in the tag area (R58): as it was, blank or garbled. -/
def partErasedField (draw a : Nat) (f : TagField) (old : List Byte) : List Byte :=
  let left := (List.range old.length).map fun i => partErased draw (a + i) (lineByte old i)
  match judgeField f left with
  | .blank | .garbled => left
  | .valid _ => old

/-- The medium with the tag fields of a sector partly erased. -/
def Memory.cutTag (m : Memory) (draw : Nat) (p : Phys) : List TagField → Memory
  | [] => m
  | f :: rest =>
    let a := tagAddr p + f.offset
    Memory.cutTag (m.setBytes a (partErasedField draw a f (m.bytes a f.length))) draw p rest

/-- One listed byte after an erase cut before the tag area. -/
def cutMainCell (draw : Nat) (p : Phys) (c : Host.Cell) : Option Host.Cell :=
  if inSector p c.1 && c.1 < tagAddr p then
    if partErased draw c.1 c.2 = erasedByte then none else some (c.1, partErased draw c.1 c.2)
  else some c

/-- Whether an address lies in one of the five tag fields of a sector. -/
def inTagField (p : Phys) (a : Nat) : Bool :=
  [TagField.count, .claim, .sealing, .release, .retire].any fun f =>
    tagAddr p + f.offset ≤ a && a < tagAddr p + f.offset + f.length

/-- One listed byte after an erase cut in the tag area, the five fields apart: the main array is
erased, and the tag area's other bits are at their old value or at 1. -/
def cutTagCell (draw : Nat) (p : Phys) (c : Host.Cell) : Option Host.Cell :=
  if !inSector p c.1 || inTagField p c.1 then some c
  else if c.1 < tagAddr p then none
  else if partErased draw c.1 c.2 = erasedByte then none
  else some (c.1, partErased draw c.1 c.2)

/-- The medium after an erase that was cut short or ended FAIL (R58). Either the tag area is
unchanged and the main array partly erased, or the main array is erased and each tag field is as
it was, blank or garbled. Which one is a free value. -/
def Memory.cutErase (m : Memory) (draw : Nat) (p : Phys) : Memory :=
  if Config.eraseReachedTag draw then
    Memory.cutTag (m.filterMap (cutTagCell draw p)) draw p
      [.count, .claim, .sealing, .release, .retire]
  else m.filterMap (cutMainCell draw p)

end Sys2Proof.Machine
end

