-- ==== Sys2Proof/Machine/Update.lean ====
section
/-!
DEFINITION. The named updates of State, one for each block. Sys2Proof/Laws/State.lean has one lemma
for each field under each update.
-/

namespace Sys2Proof.Machine

open Sys2Proof

/-- The state with the power monitor replaced. -/
def State.setPower (s : State) (x : Power) : State := { s with power := x }

/-- The state with the write-merge buffer replaced. -/
def State.setWmb (s : State) (x : Wmb) : State := { s with wmb := x }

/-- The state with the sector map replaced. -/
def State.setMap (s : State) (x : Table MapEntry) : State := { s with map := x }

/-- The state with sector accounting replaced. -/
def State.setAcct (s : State) (x : Accounting) : State := { s with acct := x }

/-- The state with the commit lanes replaced. -/
def State.setLanes (s : State) (x : PerDie Lane) : State := { s with lanes := x }

/-- The state with the relocation engine's block replaced. -/
def State.setReloc (s : State) (x : Relocation) : State := { s with reloc := x }

/-- The state with the erase engine replaced. -/
def State.setErase (s : State) (x : EraseEngine) : State := { s with erase := x }

/-- The state with the die schedulers replaced. -/
def State.setDies (s : State) (x : PerDie Die) : State := { s with dies := x }

/-- The state with the host port's block replaced. -/
def State.setHost (s : State) (x : HostPort) : State := { s with host := x }

/-- The state with the protection region table replaced. -/
def State.setRegions (s : State) (x : Table Region) : State := { s with regions := x }

/-- The state with the start-up scanner replaced. -/
def State.setScan (s : State) (x : Scanner) : State := { s with scan := x }

/-- The state with the release at work replaced. -/
def State.setRelease (s : State) (x : Option Release) : State := { s with release := x }

/-- The state with the management link replaced. -/
def State.setLink (s : State) (x : Link) : State := { s with link := x }

/-- The state with the medium replaced. -/
def State.setMedium (s : State) (x : Memory) : State := { s with medium := x }

/-- The state with the time replaced. -/
def State.setNow (s : State) (x : Nat) : State := { s with now := x }

/-- The state with the count of free values drawn replaced. -/
def State.setDraws (s : State) (x : Nat) : State := { s with draws := x }

end Sys2Proof.Machine
end

