-- ==== Sys2Proof/Machine/Ops.lean ====
section
/-!
DEFINITION. The operations the meanings share: fault records and counters (chapter 11), the entries
of the WMB (chapter 1), the map and the sets (chapter 2), relocation requests (R78), the requests
and states of the die schedulers (chapter 7), and the passing of time.
-/

namespace Sys2Proof.Machine

open Sys2Proof

/-! ### Fault records and counters -/

/-- A block makes a record (R174): it takes the sequence counter's value and joins the tail, or on a
full queue is dropped and the overflow count rises, staying at 255. -/
def record (b : RecordBody) (s : State) : State :=
  if s.link.faults.length < faultQueueSize then
    s.setLink { s.link with
      faults := s.link.faults ++ [⟨s.link.sequence, b⟩], sequence := s.link.sequence + 1 }
  else
    s.setLink { s.link with
      overflow := if s.link.overflow = 255 then 255 else s.link.overflow + 1
      sequence := s.link.sequence + 1 }

/-- The names of the ten counters (R176). -/
inductive CounterName where
  | hostReads
  | hostWrites
  | longStalls
  | refusedWrites
  | linesCommitted
  | relocationsDone
  | linesLost
  | erasesDone
  | pauses
  | sectorsRetired
  deriving DecidableEq, Repr

/-- The counters with one increased by `n`, staying at hex FFFFFFFF (R176). -/
def Counters.add (c : Counters) (k : CounterName) (n : Nat) : Counters :=
  match k with
  | .hostReads => { c with hostReads := satAdd c.hostReads n }
  | .hostWrites => { c with hostWrites := satAdd c.hostWrites n }
  | .longStalls => { c with longStalls := satAdd c.longStalls n }
  | .refusedWrites => { c with refusedWrites := satAdd c.refusedWrites n }
  | .linesCommitted => { c with linesCommitted := satAdd c.linesCommitted n }
  | .relocationsDone => { c with relocationsDone := satAdd c.relocationsDone n }
  | .linesLost => { c with linesLost := satAdd c.linesLost n }
  | .erasesDone => { c with erasesDone := satAdd c.erasesDone n }
  | .pauses => { c with pauses := satAdd c.pauses n }
  | .sectorsRetired => { c with sectorsRetired := satAdd c.sectorsRetired n }

/-- A block's increments reach the link (R176). -/
def countUp (k : CounterName) (n : Nat) (s : State) : State :=
  s.setLink { s.link with counters := s.link.counters.add k n }

/-! ### The map -/

/-- The map entry of a logical sector (R24). -/
def mapEntry (s : State) (l : Sector) : MapEntry := Table.read MapEntry.unbacked s.map l.val

/-- The state with a sector's map entry replaced. -/
def setMapEntry (l : Sector) (e : MapEntry) (s : State) : State :=
  s.setMap (Table.store MapEntry.unbacked s.map l.val e)

/-- The physical sector a BACKED sector is bound to; none when UNBACKED. -/
def boundPhys (s : State) (l : Sector) : Option Phys := (mapEntry s l).binding.map (·.phys)

/-! ### Relocation requests -/

/-- A request to queue a sector (R78), against the sector's relocation field. -/
def requestReloc (l : Sector) (reason : RelocReason) (s : State) : State :=
  let e := mapEntry s l
  match e.reloc, reason with
  | .absent, .failure =>
    setMapEntry l { e with reloc := .queued .failure }
      (s.setReloc { s.reloc with queue := ⟨l, .failure⟩ :: s.reloc.queue })
  | .absent, .backing =>
    setMapEntry l { e with reloc := .queued .backing }
      (s.setReloc { s.reloc with queue := s.reloc.queue ++ [⟨l, .backing⟩] })
  | .absent, .overwrite =>
    setMapEntry l { e with reloc := .queued .overwrite }
      (s.setReloc { s.reloc with queue := s.reloc.queue ++ [⟨l, .overwrite⟩] })
  | .queued .failure, _ => s
  | .queued _, .failure =>
    setMapEntry l { e with reloc := .queued .failure }
      (s.setReloc { s.reloc with
        queue := ⟨l, .failure⟩ :: s.reloc.queue.filter fun r => r.sector ≠ l })
  | .queued _, _ => s
  | .inFlight t _, .backing => setMapEntry l { e with reloc := .inFlight t true } s
  | .inFlight _ _, _ => s

/-! ### WMB entries -/

/-- Whether an entry is OPEN. -/
def Entry.isOpen (e : Entry) : Bool :=
  match e.stage with
  | .opened _ => true
  | .sealed _ | .committing _ _ => false

/-- Whether an entry is SEALED. -/
def Entry.isSealed (e : Entry) : Bool :=
  match e.stage with
  | .sealed _ => true
  | .opened _ | .committing _ _ => false

/-- Whether an entry is COMMITTING. -/
def Entry.isCommitting (e : Entry) : Bool :=
  match e.stage with
  | .committing _ _ => true
  | .opened _ | .sealed _ => false

/-- Whether an entry carries the fold mark (R1). -/
def Entry.isFolded (e : Entry) : Bool :=
  match e.stage with
  | .committing _ .fold => true
  | .committing _ (.lane _) | .opened _ | .sealed _ => false

/-- The logical sector of an entry. -/
def Entry.sector (e : Entry) : Sector := sectorOf e.line

/-- The state with the WMB's entries replaced. -/
def setEntries (es : List Entry) (s : State) : State := s.setWmb { s.wmb with entries := es }

/-- The state with every entry of an open order changed. -/
def updateEntry (id : Nat) (f : Entry → Entry) (s : State) : State :=
  setEntries (s.wmb.entries.map fun e => if e.openOrder = id then f e else e) s

/-- The entry of an open order. -/
def entryOf (s : State) (id : Nat) : Option Entry :=
  s.wmb.entries.find? fun e => e.openOrder == id

/-- The act of sealing (R7): the OPEN entry of an open order takes a seal order (R2), and an UNBACKED
sector that is not releasing is queued with BACKING. In FAILED the map and the relocation engine keep
what they hold (R41, R97, R165), so no sector is queued (log 24). -/
def sealEntry (id : Nat) (s : State) : State :=
  match s.wmb.entries.find? fun e => e.openOrder == id && e.isOpen with
  | none => s
  | some e =>
    let sealed := s.setWmb { s.wmb with
      entries := s.wmb.entries.map fun x =>
        if x.openOrder = id ∧ x.isOpen then { x with stage := .sealed s.wmb.sealCounter } else x
      sealCounter := s.wmb.sealCounter + 1 }
    if s.power.op ≠ .failed ∧ (mapEntry s e.sector).binding = none ∧
        (mapEntry s e.sector).releasing = false then
      requestReloc e.sector .backing sealed
    else sealed

/-- Seal the OPEN entries that meet `p`, in ascending open order (R2). -/
def sealWhere (p : Entry → Bool) (s : State) : State :=
  ((s.wmb.entries.filter fun e => e.isOpen && p e).map (·.openOrder)).foldl
    (fun t id => sealEntry id t) s

/-- Seal every OPEN entry (R11, R13). -/
def sealAll (s : State) : State := sealWhere (fun _ => true) s

/-- Seal the OPEN entry with the oldest open order, if any is OPEN (R10). -/
def sealOldest (s : State) : State :=
  match s.wmb.entries.find? Entry.isOpen with
  | some e => sealEntry e.openOrder s
  | none => s

/-- An opening (R4): a FREE entry becomes OPEN with the write's bytes and a fresh open order; with a
commit delay of 0 it is sealed at once (R8); at the high-water mark the oldest OPEN entry is sealed
(R10). -/
def openEntry (line : LineNo) (bytes : List (Option Byte)) (s : State) : State :=
  let id := s.wmb.openCounter
  let opened := s.setWmb { s.wmb with
    entries := s.wmb.entries ++
      [{ line := line, held := bytes, openOrder := id, stage := .opened 0 }]
    openCounter := id + 1 }
  let delayed := if s.wmb.commitDelay = 0 then sealEntry id opened else opened
  if highWater ≤ delayed.wmb.entries.length then sealOldest delayed else delayed

/-- A merge into the OPEN entry `e` (R5), sealing it when its mask becomes full (R9). -/
def mergeEntry (e : Entry) (bytes : List (Option Byte)) (s : State) : State :=
  let merged := updateEntry e.openOrder (fun x => { x with held := mergeHeld bytes x.held }) s
  if fullMask (mergeHeld bytes e.held) then sealEntry e.openOrder merged else merged

/-- A presented write (R3): merged into the line's OPEN entry, or opened in a FREE entry; none is
the answer FULL. -/
def presentWrite (line : LineNo) (bytes : List (Option Byte)) (s : State) : Option State :=
  match s.wmb.entries.find? fun e => e.isOpen && e.line == line with
  | some e => some (mergeEntry e bytes s)
  | none => if s.wmb.entries.length < wmbSize then some (openEntry line bytes s) else none

/-- The byte the WMB supplies at a position of a line: that of the newest entry that holds it
(R20). -/
def overlayByte (s : State) (line : LineNo) (i : Nat) : Option Byte :=
  s.wmb.entries.foldl (fun b e => if e.line = line then (heldByte e.held i).or b else b) none

/-- Free the entries that meet `p` (R17). -/
def freeWhere (p : Entry → Bool) (s : State) : State :=
  setEntries (s.wmb.entries.filter fun e => !p e) s

/-- Discard the entries that meet `p` (R19): each is freed and counted in LINES LOST; the answer is
their number. -/
def discardWhere (p : Entry → Bool) (s : State) : State × Nat :=
  let n := s.wmb.entries.countP p
  (countUp .linesLost n (freeWhere p s), n)

/-- Whether a flush boundary stands and no non-FREE entry lies below it (R12). -/
def drained (w : Wmb) : Bool :=
  match w.boundary with
  | some b => !w.entries.any fun e => e.openOrder < b
  | none => false

/-! ### Sector accounting -/

/-- The known erase count of a physical sector (R33). -/
def knownCount (s : State) (p : Phys) : EraseCount :=
  ((Table.find s.acct.recs p.val).map (·.count)).getD 0

/-- The set a physical sector belongs to (R32). -/
def membershipOf (s : State) (p : Phys) : Option Membership :=
  (Table.find s.acct.recs p.val).map (·.membership)

/-- The accounting with a sector's record replaced. -/
def Accounting.withRec (a : Accounting) (p : Phys) (m : Membership) (c : EraseCount) : Accounting :=
  { a with recs := Table.put a.recs p.val ⟨m, c⟩ }

/-- The order of the spare pool (R34): known count ascending, then physical sector number. -/
def wearBefore (s : State) (p q : Phys) : Bool :=
  knownCount s p < knownCount s q || (knownCount s p == knownCount s q && p.val < q.val)

/-- A sector put into the pool at the place its count and number give (R34). -/
def insertByWear (before : Phys → Bool) (p : Phys) : List Phys → List Phys
  | [] => [p]
  | q :: rest => if before q then p :: q :: rest else q :: insertByWear before p rest

/-- Move a sector to another set, its known count unchanged (R32). -/
def moveTo (m : Membership) (p : Phys) (s : State) : State :=
  s.setAcct (s.acct.withRec p m (knownCount s p))

/-- A sector joins the spare pool with a new known count (R34). -/
def joinPool (p : Phys) (c : EraseCount) (s : State) : State :=
  let counted := s.setAcct (s.acct.withRec p .spare c)
  counted.setAcct { counted.acct with
    pool := insertByWear (wearBefore counted p) p counted.acct.pool }

/-- A sector joins the tail of the erase queue with its known count (R37). -/
def joinEraseQueue (p : Phys) (s : State) : State :=
  let moved := moveTo .queuedForErase p s
  moved.setAcct { moved.acct with
    eraseQueue := moved.acct.eraseQueue ++ [⟨p, knownCount s p⟩] }

/-- A sector joins the retired list, and SECTORS RETIRED increases (R38). -/
def joinRetired (p : Phys) (reason : RetireReason) (s : State) : State :=
  let moved := moveTo .retired p s
  countUp .sectorsRetired 1
    (moved.setAcct { moved.acct with retired := moved.acct.retired ++ [⟨p, reason⟩] })

/-- Whether the erase queue and ERASING are both empty, so that no spare can come (R35, R36). -/
def noSpareCanCome (s : State) : Bool :=
  s.acct.eraseQueue.isEmpty && !s.acct.recs.any fun c => c.2.membership == .erasing

/-! ### Regions -/

/-- A region table entry (R145). -/
def regionAt (s : State) (i : Fin 16) : Region := Table.read Region.atPor s.regions i.val

/-- Whether an entry takes part in the lookup and contains a page (R145, R146). -/
def Region.governs (r : Region) (p : Page) : Bool :=
  r.enabled && decide (r.first ≤ p) && decide (p ≤ r.last)

/-- The governing entry of a page: the lowest index among the enabled entries that contain it
(R146). -/
def governing (s : State) (p : Page) : Option (Fin 16) :=
  (List.finRange 16).find? fun i => (regionAt s i).governs p

/-- The mode the region check answers: the governing entry's, else NORMAL (R146). -/
def modeAt (s : State) (p : Page) : Mode :=
  match governing s p with
  | some i => (regionAt s i).mode
  | none => .normal

/-! ### Die schedulers -/

/-- The state with a die's scheduler replaced. -/
def setDie (d : DieId) (x : Die) (s : State) : State := s.setDies (s.dies.set d x)

/-- The state with a die's state replaced, which ends a standing report of IDLE. -/
def setDieState (d : DieId) (x : DieState) (s : State) : State :=
  setDie d { s.dies.get d with state := x, reported := false } s

/-- A request reaches the scheduler of its die (R116) and joins the waiting requests. -/
def issue (requester : Requester) (op : DieOp) (s : State) : State :=
  let d := dieOf op.phys
  setDie d { s.dies.get d with
    waiting := (s.dies.get d).waiting ++ [⟨requester, op, s.now⟩] } s

/-- The arbiter's choice at a die free of work (R117): a HOST READ first, then the earliest INTERNAL
request, then an ERASE START. -/
def arbiterChoice (ws : List Request) : Option Request :=
  (ws.find? Request.isHostRead).or
    ((ws.find? Request.isInternal).or (ws.find? Request.isEraseStart))

/-- The choice in a hold (R125): a HOST READ, then the earliest INTERNAL read. -/
def holdChoice (ws : List Request) : Option Request :=
  (ws.find? Request.isHostRead).or (ws.find? fun r => r.isInternal && r.op.isRead)

/-- The die state when an IDLE die takes a request (R114, R117). An erase begins with a fresh erase
record (R122). -/
def takenState (r : Request) : DieState :=
  match r.op with
  | .readLine .. | .readTag _ => .reading r 0
  | .programLine .. | .programTag .. => .programming r 0
  | .eraseSector p => .erasing { phys := p, progress := 0, erasing := 0, pauses := 0 }

/-- What a DIE RESET leaves of the operation in progress (R113): a program as R56 and R57 state, an
erase, held or not, as R58 states. -/
def cutInProgress (d : DieId) (s : State) : State :=
  match (s.dies.get d).state with
  | .programming r _ =>
    (s.setMedium (s.medium.cutProgram s.draws r.op)).setDraws (s.draws + 1)
  | .erasing run | .held run _ | .heldReading run _ _ _ | .pausing _ (some run) _ _ =>
    (s.setMedium (s.medium.cutErase s.draws run.phys)).setDraws (s.draws + 1)
  | .pausing _ none _ _ | .idle | .reading _ _ | .resetting _ _ _ => s

/-- The scheduler issues DIE RESET and enters RESETTING (R113, R114). -/
def dieReset (d : DieId) (cause : ResetCause) (s : State) : State :=
  setDieState d (.resetting cause 0 false) (cutInProgress d s)

/-- The scheduler of one die acts on what waits: the choice of R117 at an IDLE die, or the report that
it is IDLE with no request waiting, the choice of R125 or the abandonment of R128 in a hold, the pause
policy of R123 at an ERASING die. -/
def settleDie (d : DieId) (s : State) : State :=
  let die := s.dies.get d
  if s.power.op = .failed ∨ die.offline = true then s
  else
    match die.state with
    | .idle =>
      match arbiterChoice die.waiting with
      | some r => setDie d { die with state := takenState r, waiting := die.waiting.erase r } s
      | none => setDie d { die with reported := true } s
    | .held run abandon =>
      if abandon then dieReset d .abandonment s
      else
        match holdChoice die.waiting with
        | some r =>
          setDie d { die with
            state := .heldReading run r false 0, waiting := die.waiting.erase r
            reported := false } s
        | none => setDieState d (.erasing { run with progress := 0 }) s
    | .erasing run =>
      if die.waiting.any Request.isHostRead ∧ progressInterval ≤ run.progress ∧
          run.pauses < pauseBudget then
        setDieState d (.pausing run.phys (some run) false 0) s
      else s
    | .reading _ _ | .programming _ _ | .pausing _ _ _ _ | .heldReading _ _ _ _
    | .resetting _ _ _ => s

/-- Both schedulers act on what waits. -/
def settle (s : State) : State := settleDie .die1 (settleDie .die0 s)

/-- The operation in progress at a die that has a result of its own to deliver: a read or a
program. -/
def Die.inProgress (die : Die) : Option Request :=
  match die.state with
  | .reading r _ | .programming r _ | .heldReading _ r _ _ => some r
  | .idle | .erasing _ | .pausing _ _ _ _ | .held _ _ | .resetting _ _ _ => none

/-- The operation of a requester that die `d` answers now; none in FAILED, where no result is
delivered (R129). -/
def answering (s : State) (d : DieId) (who : Requester) : Option DieOp :=
  if s.power.op = .failed then none
  else
    match (s.dies.get d).inProgress with
    | some r => if r.requester = who then some r.op else none
    | none => none

/-- A result ends the read or program in progress (R114): the die is IDLE, or HELD after a read in a
hold. -/
def endOperation (d : DieId) (s : State) : State :=
  match (s.dies.get d).state with
  | .heldReading run _ abandon _ => setDieState d (.held run abandon) s
  | .reading _ _ | .programming _ _ => setDieState d .idle s
  | .idle | .erasing _ | .pausing _ _ _ _ | .held _ _ | .resetting _ _ _ => s

/-- The end of a program: its effect on the medium and its result (R47, R56, R57). A program whose
die reports FAIL draws one free value. -/
def endProgram (op : DieOp) (ok : Bool) (s : State) : State × Bool :=
  let r := s.medium.program s.draws op ok
  ((s.setMedium r.1).setDraws (if ok then s.draws else s.draws + 1), r.2)

/-! ### The held cycle and the passing of time -/

/-- The cycle the port holds with HRDY low, in any of its ways (R131, R143). -/
def heldCycle (s : State) : Option HeldCycle :=
  match s.host.port with
  | .reading (.cycle h) _ | .writing h | .holding h => some h
  | .reading (.abandoned next) _ => next
  | .idle | .completed _ _ | .inReset _ => none

/-- The port with its held cycle changed. -/
def Port.mapHeld (f : HeldCycle → HeldCycle) : Port → Port
  | .reading (.cycle h) a => .reading (.cycle (f h)) a
  | .reading (.abandoned next) a => .reading (.abandoned (next.map f)) a
  | .writing h => .writing (f h)
  | .holding h => .holding (f h)
  | .idle => .idle
  | .completed c w => .completed c w
  | .inReset c => .inReset c

/-- The state with the port replaced. -/
def setPort (p : Port) (s : State) : State := s.setHost { s.host with port := p }

/-- LONG STALLS counts the held cycle once its stall has reached the threshold (R143). -/
def countStall (s : State) : State :=
  match heldCycle s with
  | some h =>
    if !h.counted && decide (s.host.threshold.toNat ≤ h.stall) then
      countUp .longStalls 1
        (setPort (s.host.port.mapHeld fun h => { h with counted := true }) s)
    else s
  | none => s

/-- Time at a die (R119, R122): the time of an operation, PAUSE or DIE RESET counts from its taking
or issue; progress and erasing time advance in ERASING and stand still in a hold. In FAILED only a
DIE RESET is still timed (R129). -/
def DieState.elapse (op : OpState) (dt : Nat) (st : DieState) : DieState :=
  match st with
  | .resetting c t a => .resetting c (t + dt) a
  | .reading r t => if op = .failed then st else .reading r (t + dt)
  | .programming r t => if op = .failed then st else .programming r (t + dt)
  | .erasing run =>
    if op = .failed then st
    else .erasing { run with progress := run.progress + dt, erasing := run.erasing + dt }
  | .pausing p run ab t => if op = .failed then st else .pausing p run ab (t + dt)
  | .heldReading run r ab t => if op = .failed then st else .heldReading run r ab (t + dt)
  | .idle => .idle
  | .held run ab => .held run ab

/-- Time at a die scheduler. A report of IDLE that a request has overtaken is past once time has
passed (log 29). -/
def Die.elapse (op : OpState) (dt : Nat) (die : Die) : Die :=
  { die with
    state := die.state.elapse op dt
    reported := die.reported && (dt == 0 || die.state == .idle) }

/-- An OPEN entry's age counts in every operating state (R8). -/
def Entry.elapse (dt : Nat) (e : Entry) : Entry :=
  match e.stage with
  | .opened age => { e with stage := .opened (age + dt) }
  | .sealed _ | .committing _ _ => e

/-- Ages (R8), the held cycle's stall (R143) and the dies' times (R119, R122) advance by `dt` µs. -/
def advance (dt : Nat) (s : State) : State :=
  { s with
    wmb := { s.wmb with entries := s.wmb.entries.map (Entry.elapse dt) }
    host := { s.host with
      port := s.host.port.mapHeld fun h => { h with stall := h.stall + dt } }
    dies := ⟨s.dies.die0.elapse s.power.op dt, s.dies.die1.elapse s.power.op dt⟩
    now := s.now + dt }

/-- `dt` µs pass. A stall that reaches the threshold in that time is counted (R143). -/
def elapse (dt : Nat) (s : State) : State := countStall (advance dt s)

end Sys2Proof.Machine
end

