-- ==== Sys2Proof/Machine/Wmb.lean ====
section
/-!
DEFINITION. The write-merge buffer's own happenings (chapter 1): the expiry of a commit delay and the
drain of a flush boundary.
-/

namespace Sys2Proof.Machine

open Sys2Proof

/-- The OPEN entry of a line, with its age (R1: at most one). -/
def openAge (s : State) (line : LineNo) : Option (Nat × Nat) :=
  s.wmb.entries.findSome? fun e =>
    match e.stage with
    | .opened age => if e.line = line then some (e.openOrder, age) else none
    | .sealed _ | .committing _ _ => none

/-- The long command in progress ends (R169): outcome DONE, the link READY. -/
def longDone (s : State) : State :=
  match s.link.lastLong with
  | some l => s.setLink { s.link with lastLong := some { l with done := true } }
  | none => s

/-- Whether a FLUSH is in progress (R169). -/
def flushInProgress (s : State) : Bool := s.link.lastLong == some ⟨.flush, false⟩

/-- The WMB's drain report (R12): the boundary is cleared and the FLUSH command completes. -/
def reportDrain (s : State) : State :=
  if drained s.wmb then
    let cleared := s.setWmb { s.wmb with boundary := none }
    if flushInProgress s then longDone cleared else cleared
  else s

/-- COMMIT_DELAY_EXPIRY (R8): the age of the line's OPEN entry reaches the commit delay, the time it
still lacks passing first, and the entry is sealed (R7). -/
def execCommitDelayExpiry (line : LineNo) (s : State) : Host.Outcome State Fault Refusal :=
  .next (match openAge s line with
    | some (id, age) => sealEntry id (elapse (s.wmb.commitDelay.toNat - age) s)
    | none => s)

/-- FLUSH_DRAIN (R12, R169, R170). -/
def execFlushDrain (s : State) : Host.Outcome State Fault Refusal := .next (reportDrain s)

end Sys2Proof.Machine
end

