-- ==== Sys2Proof/Machine/Release.lean ====
section
/-!
DEFINITION. The release of a BACKED sector on the medium (R29 to R31, R14).
-/

namespace Sys2Proof.Machine

open Sys2Proof

/-- A release begins on the medium (R29, R30): the releasing flag is set and the RELEASE program is
issued with the map's claim generation. -/
def startRelease (l : Sector) (b : Binding) (s : State) : State :=
  issue .release (.programTag b.phys (.release b.gen))
    ((setMapEntry l { mapEntry s l with releasing := true } s).setRelease
      (some { sector := l, phys := b.phys, retiring := false }))

/-- The WMB's look for SEALED entries when a releasing flag is cleared (R14). -/
def queueStaged (l : Sector) (s : State) : State :=
  if s.wmb.entries.any fun e => e.isSealed && e.sector == l then requestReloc l .backing s else s

/-- The release ends (R30, R31, R14): the sector is UNBACKED with its flags clear, its physical
sector has left MAPPED, and the link completes the command. -/
def releaseEnds (r : Release) (s : State) : State :=
  let unbound := setMapEntry r.sector
    { mapEntry s r.sector with binding := none, releasing := false, suspect := false } s
  queueStaged r.sector (longDone (unbound.setRelease none))

/-- The RELEASE program ends (R30, R31). -/
def releaseMarkEnds (pass : Bool) (s : State) : State :=
  match s.release with
  | some r =>
    if r.retiring then s
    else if pass then releaseEnds r (joinEraseQueue r.phys s)
    else
      issue .release (.programTag r.phys (.retire .tag))
        ((record (.programFail r.phys none) s).setRelease (some { r with retiring := true }))
  | none => s

/-- The release's RETIRE program ends (R31, R53). -/
def releaseRetireEnds (pass : Bool) (s : State) : State :=
  match s.release with
  | some r =>
    if r.retiring then
      releaseEnds r (joinRetired r.phys .tag
        (if pass then s else record (.programFail r.phys none) s))
    else s
  | none => s

/-- TIMEOUT for an operation of the release (R31, R53, R120). -/
def releaseTimeout (op : DieOp) (s : State) : State :=
  match op with
  | .programTag _ (.release _) => releaseMarkEnds false s
  | .programTag _ (.retire _) => releaseRetireEnds false s
  | .programTag _ (.count _) | .programTag _ (.claim _ _) | .programTag _ (.sealing _)
  | .readLine .. | .readTag _ | .programLine .. | .eraseSector _ => s

/-! ### Meanings -/

/-- RELEASE_PROGRAM_RESULT (R30, R31, R119). -/
def execReleaseProgramResult (ok : Bool) (s : State) : Host.Outcome State Fault Refusal :=
  .next (match s.release with
    | some r =>
      match answering s (dieOf r.phys) .release with
      | some (.programTag p (.release g)) =>
        let ended := endProgram (.programTag p (.release g)) ok (endOperation (dieOf r.phys) s)
        settle (releaseMarkEnds ended.2 ended.1)
      | _ => s
    | none => s)

/-- RELEASE_RETIRE_RESULT (R31, R53, R119). -/
def execReleaseRetireResult (ok : Bool) (s : State) : Host.Outcome State Fault Refusal :=
  .next (match s.release with
    | some r =>
      match answering s (dieOf r.phys) .release with
      | some (.programTag p (.retire reason)) =>
        let ended := endProgram (.programTag p (.retire reason)) ok (endOperation (dieOf r.phys) s)
        settle (releaseRetireEnds ended.2 ended.1)
      | _ => s
    | none => s)

end Sys2Proof.Machine
end

