-- ==== Sys2Proof/Machine/Flags.lean ====
section
/-!
DEFINITION. The levels of the part's output pins and its status flags, computed from the state:
HRDY and HD[15:0] (R131), DRAINED (R164), ATTN# (R177), the link's COMMAND IN PROGRESS (R169).
-/

namespace Sys2Proof.Machine

open Sys2Proof

/-- HRDY is high: the port holds no cycle it has not completed (R131), and RST# is not asserted (R142,
log 10). -/
def hrdy (s : State) : Bool :=
  !s.power.rst &&
    match s.host.port with
    | .idle | .completed _ _ | .reading (.abandoned none) _ => true
    | .inReset _ | .reading (.cycle _) _ | .reading (.abandoned (some _)) _ | .writing _
    | .holding _ => false

/-- The word the port drives on HD[15:0]; none while it drives nothing (R131). -/
def hd (s : State) : Option HostWord :=
  match s.host.port with
  | .completed _ w => w
  | .idle | .inReset _ | .reading _ _ | .writing _ | .holding _ => none

/-- DRAINED is high (R164). -/
def drainedPin (s : State) : Bool :=
  (s.power.op == .running || s.power.op == .powerdown) && s.wmb.entries.isEmpty &&
    s.reloc.engine == .idle && s.reloc.queue.isEmpty

/-- ATTN# is asserted (R177). -/
def attn (s : State) : Bool :=
  (!s.link.faults.isEmpty && s.link.faultAttention) ||
    (s.power.degraded.isSome && s.link.degradedAttention) || s.power.op == .failed

/-- The link is in COMMAND IN PROGRESS (R169). -/
def commandInProgress (s : State) : Bool :=
  match s.link.lastLong with
  | some l => !l.done
  | none => false

end Sys2Proof.Machine
end

