-- ==== Sys2Proof/Machine/HostPort.lean ====
section
/-!
DEFINITION. The host port (chapter 8): arrivals, reads, writes, held cycles, abandonment, stalls.
-/

namespace Sys2Proof.Machine

open Sys2Proof

/-- A read completes (R131, R144): the word is driven, HRDY is high, HOST READS increases. -/
def completeRead (c : HostCycle) (w : HostWord) (s : State) : State :=
  countUp .hostReads 1 (setPort (.completed c (some w)) s)

/-- A write is completed and dropped, and REFUSED WRITES increases (R136, R137, R141). -/
def refuseWrite (c : HostCycle) (s : State) : State :=
  countUp .refusedWrites 1 (setPort (.completed c none) s)

/-- A write met while DEGRADED is set (R137): completed and dropped with a DEGRADED WRITE record. -/
def refuseDegraded (c : HostCycle) (s : State) : State :=
  refuseWrite c (record (.degradedWrite (lineOf c.addr)) s)

/-- The port refuses the write it holds, when DEGRADED is set (R137). -/
def refuseHeldWrite (s : State) : State :=
  match s.host.port with
  | .writing h => refuseDegraded h.cycle s
  | .idle | .completed _ _ | .inReset _ | .reading _ _ | .holding _ => s

/-- The port presents a write to the WMB (R138): taken and counted, or held for a full WMB. -/
def takeOrHold (h : HeldCycle) (data : HostWord) (s : State) : State :=
  match presentWrite (lineOf h.cycle.addr) (writeBytes h.cycle data) s with
  | some taken => countUp .hostWrites 1 (setPort (.completed h.cycle none) taken)
  | none => setPort (.writing h) s

/-- A write that has passed the region check (R137): refused in DEGRADED, presented in RUNNING (R138),
held in POWERDOWN (R139). -/
def writePastRegion (h : HeldCycle) (data : HostWord) (s : State) : State :=
  if s.power.degraded.isSome then refuseDegraded h.cycle s
  else if s.power.op = .running then takeOrHold h data s
  else setPort (.writing h) s

/-- A write cycle handled in RUNNING or POWERDOWN (R136). -/
def arriveWrite (h : HeldCycle) (data : HostWord) (s : State) : State :=
  match governing s (pageOf h.cycle.addr) with
  | some i =>
    if (regionAt s i).mode = .readOnly ∨ (regionAt s i).mode = .noAccess then
      refuseWrite h.cycle (record (.regionWrite (lineOf h.cycle.addr) i) s)
    else writePastRegion h data s
  | none => writePastRegion h data s

/-- A read that has passed the region check (R134): from the overlay, from hex FF, or by a READ
LINE. -/
def readPastRegion (h : HeldCycle) (s : State) : State :=
  let c := h.cycle
  let line := lineOf c.addr
  let lowByte := overlayByte s line (lowPosition c.addr)
  let highByte := overlayByte s line (lowPosition c.addr + 1)
  let e := mapEntry s (sectorOf line)
  let covered := (!c.low || lowByte.isSome) && (!c.high || highByte.isSome)
  match e.binding with
  | some b =>
    if covered || e.releasing then
      completeRead c (readWord c (lowByte.getD 0xFF#8) (highByte.getD 0xFF#8)) s
    else
      issue .hostPort (.readLine b.phys (posOf line))
        (setPort (.reading (.cycle h) ⟨b.phys, posOf line, lowByte, highByte⟩) s)
  | none => completeRead c (readWord c (lowByte.getD 0xFF#8) (highByte.getD 0xFF#8)) s

/-- A read cycle handled in RUNNING or POWERDOWN (R133). -/
def arriveRead (h : HeldCycle) (s : State) : State :=
  match governing s (pageOf h.cycle.addr) with
  | some i =>
    if (regionAt s i).mode = .noAccess then
      completeRead h.cycle 0xFFFF#16 (record (.regionRead (lineOf h.cycle.addr) i) s)
    else readPastRegion h s
  | none => readPastRegion h s

/-- A cycle is handled as arriving, by the operating state (R131, R140, R141). In STARTING every cycle
is held (R140, R160); else one with neither lane enabled completes at once, counted nowhere (R132,
log 9). -/
def handleArrival (h : HeldCycle) (s : State) : State :=
  if s.power.op ≠ .starting ∧ h.cycle.low = false ∧ h.cycle.high = false then
    match h.cycle.kind with
    | .read => setPort (.completed h.cycle (some 0xFFFF#16)) s
    | .write _ => setPort (.completed h.cycle none) s
  else
    match s.power.op, h.cycle.kind with
    | .starting, _ => setPort (.holding h) s
    | .failed, .read => completeRead h.cycle 0xFFFF#16 s
    | .failed, .write _ => refuseWrite h.cycle s
    | .running, .read | .powerdown, .read => arriveRead h s
    | .running, .write data | .powerdown, .write data => arriveWrite h data s

/-- A cycle that has just arrived. -/
def newCycle (c : HostCycle) : HeldCycle := { cycle := c, stall := 0, counted := false }

/-- The port returns to IDLE after an abandoned read, and the cycle that waited behind it is handled
as arriving (R131, R142). -/
def portReturns (next : Option HeldCycle) (s : State) : State :=
  match next with
  | some h => handleArrival h (setPort .idle s)
  | none => setPort .idle s

/-- The host releases HSEL# or its strobe before completion (R142): a held write, a cycle in HOLDING or
one waiting behind an abandoned read is dropped; a read in READING leaves its READ LINE
outstanding. -/
def abandonCycle (s : State) : State :=
  match s.host.port with
  | .reading (.cycle _) ask => setPort (.reading (.abandoned none) ask) s
  | .reading (.abandoned _) ask => setPort (.reading (.abandoned none) ask) s
  | .writing _ | .holding _ | .inReset _ => setPort .idle s
  | .idle | .completed _ _ => s

/-- The host releases HSEL# or its strobe after completion (R131). -/
def endCycle (s : State) : State :=
  match s.host.port with
  | .completed _ _ => setPort .idle s
  | .idle | .inReset _ | .reading _ _ | .writing _ | .holding _ => s

/-- A cycle arrives on the bus (R131). The bus carries one cycle at a time, so an arrival shows that
the host has released the cycle before it, completed or not (DEDUCED, log 8). While RST# is asserted
the port takes no cycle; behind an abandoned read the cycle waits. -/
def arrive (c : HostCycle) (s : State) : State :=
  let free := endCycle (abandonCycle s)
  if s.power.rst then setPort (.inReset c) free
  else
    match free.host.port with
    | .reading _ ask => setPort (.reading (.abandoned (some (newCycle c))) ask) free
    | .idle | .completed _ _ | .inReset _ | .writing _ | .holding _ =>
      handleArrival (newCycle c) free

/-- The READ LINE result reaches the port (R135): positions the overlay does not cover are filled from
the line. An abandoned read's result is discarded (R142). -/
def portReadResult (line : LineData) (s : State) : State :=
  match s.host.port with
  | .reading (.cycle h) ask =>
    let i := lowPosition h.cycle.addr
    completeRead h.cycle
      (readWord h.cycle (ask.lowByte.getD (lineByte line i))
        (ask.highByte.getD (lineByte line (i + 1)))) s
  | .reading (.abandoned next) _ => portReturns next s
  | .idle | .completed _ _ | .inReset _ | .writing _ | .holding _ => s

/-- TIMEOUT for the port's READ LINE (R135): issued again, or none for an abandoned read (R142). -/
def portReadTimeout (s : State) : State :=
  match s.host.port with
  | .reading (.cycle _) ask => issue .hostPort (.readLine ask.phys ask.pos) s
  | .reading (.abandoned next) _ => portReturns next s
  | .idle | .completed _ _ | .inReset _ | .writing _ | .holding _ => s

/-- The port at the entry into FAILED (R141), in the state FAILED. -/
def portEntersFailed (s : State) : State :=
  match s.host.port with
  | .reading (.cycle h) _ => completeRead h.cycle 0xFFFF#16 s
  | .reading (.abandoned next) _ => portReturns next s
  | .writing h => refuseWrite h.cycle s
  | .holding h => handleArrival h s
  | .idle | .completed _ _ | .inReset _ => s

/-- The port presents the write it holds, after the DEGRADED check, in RUNNING only (R6, R138, R139). -/
def presentHeldWrite (s : State) : State :=
  match s.host.port, s.power.op with
  | .writing h, .running =>
    match h.cycle.kind with
    | .write data => writePastRegion h data s
    | .read => s
  | _, _ => s

/-! ### Meanings -/

/-- HOST_READ (R131 to R134, R140, R141). -/
def execHostRead (addr : WordAddr) (low high : Bool) (s : State) :
    Host.Outcome State Fault Refusal :=
  .next (settle (arrive { addr := addr, low := low, high := high, kind := .read } s))

/-- HOST_WRITE (R131, R132, R136 to R141). -/
def execHostWrite (addr : WordAddr) (data : HostWord) (low high : Bool) (s : State) :
    Host.Outcome State Fault Refusal :=
  .next (arrive { addr := addr, low := low, high := high, kind := .write data } s)

/-- HOST_CYCLE_ABANDONED (R142). -/
def execHostCycleAbandoned (s : State) : Host.Outcome State Fault Refusal :=
  .next (abandonCycle s)

/-- HOST_CYCLE_END (R131). -/
def execHostCycleEnd (s : State) : Host.Outcome State Fault Refusal := .next (endCycle s)

/-- LONG_STALL (R143): the stall reaches the threshold, the time it still lacks passing first, and
LONG STALLS increases once. -/
def execLongStall (s : State) : Host.Outcome State Fault Refusal :=
  .next (match heldCycle s with
    | some h => if h.counted then s else elapse (s.host.threshold.toNat - h.stall) s
    | none => s)

/-- HELD_WRITE_PRESENTED (R6, R138). -/
def execHeldWritePresented (s : State) : Host.Outcome State Fault Refusal :=
  .next (presentHeldWrite s)

/-- HOST_READ_LINE_RESULT (R135, R119, R117, R125). -/
def execHostReadLineResult (s : State) : Host.Outcome State Fault Refusal :=
  .next (match s.host.port with
    | .reading _ ask =>
      match answering s (dieOf ask.phys) .hostPort with
      | some (.readLine p pos) =>
        settle (portReadResult (s.medium.line p pos) (endOperation (dieOf ask.phys) s))
      | _ => s
    | _ => s)

end Sys2Proof.Machine
end

