-- ==== Sys2Proof/Machine/Relocation.lean ====
section
/-!
DEFINITION. The relocation engine (chapter 5) with DEGRADED (R39, R55, R92): take, target choice,
claim, fold, copy, seal, switch, target failure, abandonment.
-/

namespace Sys2Proof.Machine

open Sys2Proof

/-- The state with the engine replaced. -/
def setEngine (e : Engine) (s : State) : State := s.setReloc { s.reloc with engine := e }

/-- The folded list (R79): the entries with the fold mark, in ascending open order. -/
def foldedList (s : State) : List Entry := s.wmb.entries.filter Entry.isFolded

/-- The relocation field's target (R27); a backing-pending mark stays. -/
def setFieldTarget (l : Sector) (t : Option Phys) (s : State) : State :=
  let e := mapEntry s l
  match e.reloc with
  | .inFlight _ b => setMapEntry l { e with reloc := .inFlight t b } s
  | .absent | .queued _ => setMapEntry l { e with reloc := .inFlight t false } s

/-- The power monitor is asked to set DEGRADED (R39). If the flag was clear it becomes set, the engine
makes one DEGRADED ENTERED record with the lines lost, and the port refuses a held write (R137). -/
def requestDegraded (reason : DegradedReason) (lost : Nat) (s : State) : State :=
  match s.power.degraded, reason with
  | none, r =>
    refuseHeldWrite (record (.degradedEntered lost r)
      (s.setPower { s.power with degraded := some r }))
  | some .spares, .generation => s.setPower { s.power with degraded := some .generation }
  | some _, _ => s

/-- What an abandonment discards (R91 item 1): the folded entries, or the sector's SEALED entries if
no fold has been made. -/
def abandonDiscards (s : State) (l : Sector) (e : Entry) : Bool :=
  if (foldedList s).isEmpty then e.isSealed && e.sector == l else e.isFolded

/-- An abandonment (R91), in its order; `why` is the DEGRADED reason where one is asked for. -/
def abandon (j : Job) (why : Option DegradedReason) (s : State) : State :=
  let lost := discardWhere (abandonDiscards s j.sector) s
  let recorded := record (.relocationLoss j.sector lost.2) lost.1
  let e := mapEntry recorded j.sector
  let again := e.binding.isNone && !e.releasing &&
    recorded.wmb.entries.any fun x => x.isSealed && x.sector == j.sector
  let requeued :=
    if again then
      setMapEntry j.sector { e with reloc := .queued .backing }
        (recorded.setReloc { recorded.reloc with
          queue := recorded.reloc.queue ++ [⟨j.sector, .backing⟩] })
    else setMapEntry j.sector { e with reloc := .absent } recorded
  let asked :=
    match why with
    | some r => requestDegraded r lost.2 requeued
    | none => requeued
  setEngine .idle asked

/-- Sector accounting's answer to a target request (R35): the front of the pool, where the class may
take it. -/
def spareFor (r : RelocReason) (s : State) : Option Phys :=
  match r, s.acct.pool with
  | _, [] => none
  | .failure, p :: _ => some p
  | .backing, [_] | .overwrite, [_] => none
  | .backing, p :: _ :: _ | .overwrite, p :: _ :: _ => some p

/-- A target is taken and claimed (R35, R50, R54, R81). -/
def claimTarget (j : Job) (t : Phys) (g : Gen) (s : State) : State :=
  let taken := moveTo .target t (s.setAcct { s.acct with pool := s.acct.pool.erase t })
  let field := setFieldTarget j.sector (some t) taken
  issue .relocation (.programTag t (.claim j.sector g))
    (field.setReloc { field.reloc with
      engine := .claiming j t g false, generation := some (g + 1) })

/-- The target choice (R81): the generation counter is compared with hex FFFFFFFF first (R55). -/
def chooseTarget (j : Job) (s : State) : State :=
  match s.reloc.generation with
  | none => setEngine (.awaitingSpare j) s
  | some g =>
    if g = lastGeneration then abandon j (some .generation) s
    else
      match spareFor j.reason s with
      | some t => claimTarget j t g s
      | none =>
        if noSpareCanCome s then abandon j (some .spares) s else setEngine (.awaitingSpare j) s

/-- The take of the head record (R80), with the target choice in the same happening. -/
def relocationTakes (s : State) : State :=
  match s.reloc.queue with
  | [] => s
  | r :: rest =>
    let left := s.setReloc { s.reloc with queue := rest }
    let flying := setMapEntry r.sector
      { mapEntry left r.sector with reloc := .inFlight none false } left
    chooseTarget
      { sector := r.sector, reason := r.reason, source := boundPhys s r.sector, failedTargets := 0 }
      flying

/-- An entry folded into the relocation of a sector (R18). -/
def Entry.folded (l : Sector) (e : Entry) : Entry :=
  match e.stage with
  | .sealed o => if e.sector = l then { e with stage := .committing o .fold } else e
  | .opened _ | .committing _ _ => e

/-- The fold (R18, R84): every SEALED entry of the sector becomes COMMITTING with the fold mark. -/
def fold (l : Sector) (s : State) : State := setEntries (s.wmb.entries.map (Entry.folded l)) s

/-- A line of the copy (R85 item 2): the folded entries of the line laid over it, oldest first. -/
def layFolded (s : State) (line : LineNo) (start : LineData) : LineData :=
  ((foldedList s).filter fun e => e.line == line).foldl (fun l e => layOver e.held l) start

/-- The SEAL program is issued (R87). -/
def issueSeal (j : Job) (t : Phys) (g : Gen) (s : State) : State :=
  issue .relocation (.programTag t (.sealing g)) (setEngine (.sealing j t g) s)

/-- The PROGRAM LINE of a position of the copy (R85 item 3). -/
def issueCopy (j : Job) (t : Phys) (g : Gen) (pos : Pos) (line : LineData) (s : State) : State :=
  issue .relocation (.programLine t pos line) (setEngine (.copying j t g pos) s)

/-- The first position from `pos` on whose line, begun as hex FF, is not all hex FF (R85 items 1
to 4, for a relocation without a source). -/
def nextWritten (s : State) (l : Sector) (pos : Nat) : Option Pos :=
  (List.finRange 2048).find? fun p =>
    decide (pos ≤ p.val) && ((foldedList s).any fun e => e.line == lineAt l p) &&
      layFolded s (lineAt l p) blankLine != blankLine

/-- The copy goes on at a position (R85): READ LINE on the source, or for a relocation without a
source the next line that is not skipped; past the last position, the SEAL program. -/
def copyFrom (j : Job) (t : Phys) (g : Gen) (pos : Nat) (s : State) : State :=
  if h : pos < 2048 then
    match j.source with
    | some p =>
      issue .relocation (.readLine p ⟨pos, h⟩) (setEngine (.copying j t g ⟨pos, h⟩) s)
    | none =>
      match nextWritten s j.sector pos with
      | some q => issueCopy j t g q (layFolded s (lineAt j.sector q) blankLine) s
      | none => issueSeal j t g s
  else issueSeal j t g s

/-- The fold and the start of the copy (R83, R84). -/
def foldAndCopy (j : Job) (t : Phys) (g : Gen) (s : State) : State :=
  copyFrom j t g 0 (fold j.sector s)

/-- A target fails (R89). -/
def targetFails (j : Job) (t : Phys) (g : Gen) (line : Option LineNo) (reason : RetireReason)
    (s : State) : State :=
  issue .relocation (.programTag t (.retire reason))
    (setEngine (.retiringTarget { j with failedTargets := j.failedTargets + 1 } t g reason)
      (record (.programFail t line) s))

/-- The CLAIM program ends (R83, R89). -/
def claimEnds (pass : Bool) (s : State) : State :=
  match s.reloc.engine with
  | .claiming j t g _ =>
    if pass then
      if !(foldedList s).isEmpty then copyFrom j t g 0 s
      else if s.power.op = .powerdown then setEngine (.claiming j t g true) s
      else foldAndCopy j t g s
    else targetFails j t g none .tag s
  | .idle | .awaitingSpare _ | .copying .. | .sealing .. | .retiringSource .. | .retiringTarget .. =>
    s

/-- A source line returns (R85 items 1 to 4). -/
def copyLineReturns (medium : LineData) (s : State) : State :=
  match s.reloc.engine with
  | .copying j t g pos =>
    let line := layFolded s (lineAt j.sector pos) medium
    if line = blankLine then copyFrom j t g (pos.val + 1) s else issueCopy j t g pos line s
  | .idle | .awaitingSpare _ | .claiming .. | .sealing .. | .retiringSource .. | .retiringTarget .. =>
    s

/-- A copy PROGRAM LINE ends (R85, R89). -/
def copyProgramEnds (pass : Bool) (s : State) : State :=
  match s.reloc.engine with
  | .copying j t g pos =>
    if pass then copyFrom j t g (pos.val + 1) s
    else targetFails j t g (some (lineAt j.sector pos)) .program s
  | .idle | .awaitingSpare _ | .claiming .. | .sealing .. | .retiringSource .. | .retiringTarget .. =>
    s

/-- The old physical sector leaves MAPPED at a switch (R32, R87 item 1): to the retired list with
reason PROGRAM if the sector was suspect, else to the tail of the erase queue. -/
def sourceLeaves (source : Option Phys) (suspect : Bool) (s : State) : State :=
  match source with
  | some p => if suspect then joinRetired p .program s else joinEraseQueue p s
  | none => s

/-- The switch (R87), in its order. -/
def switch (j : Job) (t : Phys) (g : Gen) (s : State) : State :=
  let e := mapEntry s j.sector
  let sets := sourceLeaves j.source e.suspect (moveTo .mapped t s)
  let bound := setMapEntry j.sector
    { mapEntry sets j.sector with binding := some ⟨t, g⟩, suspect := false, reloc := .absent } sets
  let freed := freeWhere Entry.isFolded bound
  let counted := countUp .relocationsDone 1 freed
  match j.source, e.suspect with
  | some p, true =>
    issue .relocation (.programTag p (.retire .program)) (setEngine (.retiringSource j p) counted)
  | _, _ => setEngine .idle counted

/-- The SEAL program ends (R87, R89). -/
def sealEnds (pass : Bool) (s : State) : State :=
  match s.reloc.engine with
  | .sealing j t g => if pass then switch j t g s else targetFails j t g none .tag s
  | .idle | .awaitingSpare _ | .claiming .. | .copying .. | .retiringSource .. | .retiringTarget .. =>
    s

/-- The RETIRE program on a suspect old physical sector ends (R88). -/
def sourceRetireEnds (pass : Bool) (s : State) : State :=
  match s.reloc.engine with
  | .retiringSource _ p =>
    setEngine .idle (if pass then s else record (.programFail p none) s)
  | .idle | .awaitingSpare _ | .claiming .. | .copying .. | .sealing .. | .retiringTarget .. => s

/-- The RETIRE program on a failed target ends (R90; in POWERDOWN R96). -/
def targetRetireEnds (pass : Bool) (s : State) : State :=
  match s.reloc.engine with
  | .retiringTarget j t _ reason =>
    let recorded := if pass then s else record (.programFail t none) s
    let retired := setFieldTarget j.sector none (joinRetired t reason recorded)
    if maxTargets ≤ j.failedTargets then abandon j none retired
    else if s.power.op = .powerdown ∧ (foldedList s).isEmpty then
      setEngine (.awaitingSpare j) retired
    else chooseTarget j retired
  | .idle | .awaitingSpare _ | .claiming .. | .copying .. | .sealing .. | .retiringSource .. => s

/-- TIMEOUT for an operation of the relocation engine (R86, R88, R89, R90). -/
def relocationTimeout (op : DieOp) (s : State) : State :=
  match op with
  | .readLine p pos => issue .relocation (.readLine p pos) s
  | .programLine .. => copyProgramEnds false s
  | .programTag _ (.claim _ _) => claimEnds false s
  | .programTag _ (.sealing _) => sealEnds false s
  | .programTag _ (.retire _) => targetRetireEnds false (sourceRetireEnds false s)
  | .programTag _ (.count _) | .programTag _ (.release _) | .readTag _ | .eraseSector _ => s

/-- Whether a report, or the return to RUNNING, makes a relocation AWAITING SPARE choose again (R82,
R96): in RUNNING, or in POWERDOWN once it has folded. -/
def reportHeard (s : State) : Bool :=
  s.power.op == .running || (s.power.op == .powerdown && !(foldedList s).isEmpty)

/-- A report reaches the engine (R82). -/
def spareReported (s : State) : State :=
  match s.reloc.engine with
  | .awaitingSpare j => if reportHeard s then chooseTarget j s else s
  | .idle | .claiming .. | .copying .. | .sealing .. | .retiringSource .. | .retiringTarget .. => s

/-- The engine at the return to RUNNING (R83, R96): it folds if a fold is pending, and makes the
target choice if it waits without a folded list. -/
def relocationResumes (s : State) : State :=
  match s.reloc.engine with
  | .claiming j t g true => foldAndCopy j t g s
  | .awaitingSpare j => if (foldedList s).isEmpty then chooseTarget j s else s
  | .idle | .claiming _ _ _ false | .copying .. | .sealing .. | .retiringSource ..
  | .retiringTarget .. => s

/-! ### Meanings -/

/-- The program of the relocation engine that the die of `t` answers now. -/
def relocationAnswers (s : State) (t : Phys) : Option DieOp := answering s (dieOf t) .relocation

/-- RELOCATION_TAKE (R80): the IDLE engine, in RUNNING. -/
def execRelocationTake (s : State) : Host.Outcome State Fault Refusal :=
  .next (if s.reloc.engine = .idle ∧ s.power.op = .running then settle (relocationTakes s) else s)

/-- SPARE_REPORT (R82, R96). -/
def execSpareReport (s : State) : Host.Outcome State Fault Refusal :=
  .next (match s.reloc.engine with
    | .awaitingSpare _ => settle (spareReported s)
    | _ => s)

/-- CLAIM_RESULT (R83, R89, R119). -/
def execClaimResult (ok : Bool) (s : State) : Host.Outcome State Fault Refusal :=
  .next (match s.reloc.engine with
    | .claiming _ t _ _ =>
      match relocationAnswers s t with
      | some (.programTag p c) =>
        let ended := endProgram (.programTag p c) ok (endOperation (dieOf t) s)
        settle (claimEnds ended.2 ended.1)
      | _ => s
    | _ => s)

/-- COPY_READ_LINE_RESULT (R85, R119). -/
def execCopyReadLineResult (s : State) : Host.Outcome State Fault Refusal :=
  .next (match s.reloc.engine with
    | .copying j _ _ _ =>
      match j.source with
      | some src =>
        match relocationAnswers s src with
        | some (.readLine p pos) =>
          settle (copyLineReturns (s.medium.line p pos) (endOperation (dieOf src) s))
        | _ => s
      | none => s
    | _ => s)

/-- COPY_PROGRAM_LINE_RESULT (R85, R89, R119). -/
def execCopyProgramLineResult (ok : Bool) (s : State) : Host.Outcome State Fault Refusal :=
  .next (match s.reloc.engine with
    | .copying _ t _ _ =>
      match relocationAnswers s t with
      | some (.programLine p pos data) =>
        let ended := endProgram (.programLine p pos data) ok (endOperation (dieOf t) s)
        settle (copyProgramEnds ended.2 ended.1)
      | _ => s
    | _ => s)

/-- SEAL_RESULT (R87, R89, R119). -/
def execSealResult (ok : Bool) (s : State) : Host.Outcome State Fault Refusal :=
  .next (match s.reloc.engine with
    | .sealing _ t _ =>
      match relocationAnswers s t with
      | some (.programTag p c) =>
        let ended := endProgram (.programTag p c) ok (endOperation (dieOf t) s)
        settle (sealEnds ended.2 ended.1)
      | _ => s
    | _ => s)

/-- SOURCE_RETIRE_RESULT (R88, R119). -/
def execSourceRetireResult (ok : Bool) (s : State) : Host.Outcome State Fault Refusal :=
  .next (match s.reloc.engine with
    | .retiringSource _ old =>
      match relocationAnswers s old with
      | some (.programTag p c) =>
        let ended := endProgram (.programTag p c) ok (endOperation (dieOf old) s)
        settle (sourceRetireEnds ended.2 ended.1)
      | _ => s
    | _ => s)

/-- TARGET_RETIRE_RESULT (R90, R119). -/
def execTargetRetireResult (ok : Bool) (s : State) : Host.Outcome State Fault Refusal :=
  .next (match s.reloc.engine with
    | .retiringTarget _ t _ _ =>
      match relocationAnswers s t with
      | some (.programTag p c) =>
        let ended := endProgram (.programTag p c) ok (endOperation (dieOf t) s)
        settle (targetRetireEnds ended.2 ended.1)
      | _ => s
    | _ => s)

end Sys2Proof.Machine
end

