-- ==== Sys2Proof/Machine/Reports.lean ====
section
/-!
DEFINITION. The bytes the management link reports (section 11.9): codes of states and fields, the
status block, the fault record, and the answers of the queries. An absent field is hex FF in every
byte.
-/

namespace Sys2Proof.Machine

open Sys2Proof

/-- An absent field of `n` bytes (section 11.9). -/
def absent (n : Nat) : List Byte := List.replicate n 0xFF#8

/-- A number as one byte. -/
def byte1 (n : Nat) : List Byte := [BitVec.ofNat 8 n]

/-- A physical sector in two bytes; absent where there is none. -/
def physBytes : Option Phys → List Byte
  | some p => beBytes 2 p.val
  | none => absent 2

/-- A logical sector in two bytes; absent where there is none. -/
def sectorBytes : Option Sector → List Byte
  | some l => beBytes 2 l.val
  | none => absent 2

/-- A generation in four bytes; absent where there is none. -/
def genBytes : Option Gen → List Byte
  | some g => beBytes 4 g.toNat
  | none => absent 4

/-- Yes and no (section 11.9). -/
def boolByte (b : Bool) : List Byte := if b then [0x01#8] else [0x00#8]

/-- A byte of flags, bit 0 first. -/
def flagByte (bits : List Bool) : List Byte :=
  byte1 (bits.foldr (fun b n => 2 * n + (if b then 1 else 0)) 0)

/-! ### Codes -/

/-- The operating state in the status block (R154, section 11.9). -/
def OpState.code : OpState → Nat
  | .starting => 0
  | .running => 1
  | .powerdown => 2
  | .failed => 3

/-- The DEGRADED byte (section 11.9). -/
def degradedCode : Option DegradedReason → Nat
  | none => 0
  | some .spares => 1
  | some .generation => 2

/-- Modes (section 11.9). -/
def Mode.code : Mode → Nat
  | .normal => 0
  | .clearOnly => 1
  | .readOnly => 2
  | .noAccess => 3

/-- The mode a byte codes (R148). -/
def modeOf (b : Byte) : Option Mode :=
  if b = 0x00#8 then some .normal
  else if b = 0x01#8 then some .clearOnly
  else if b = 0x02#8 then some .readOnly
  else if b = 0x03#8 then some .noAccess
  else none

/-- Memberships (section 11.9). -/
def Membership.code : Membership → Nat
  | .mapped => 0
  | .target => 1
  | .spare => 2
  | .queuedForErase => 3
  | .erasing => 4
  | .retired => 5

/-- Relocation reasons (section 11.9). -/
def RelocReason.code : RelocReason → Nat
  | .backing => 1
  | .overwrite => 2
  | .failure => 3

/-- Relocation engine states (R79, section 11.9). SEALING covers the RETIRE program after a switch. -/
def Engine.code : Engine → Nat
  | .idle => 0
  | .awaitingSpare _ => 1
  | .claiming .. => 2
  | .copying .. => 3
  | .sealing .. | .retiringSource .. => 4
  | .retiringTarget .. => 5

/-- Lane states (R60). -/
def Lane.code : Lane → Nat
  | .idle => 0
  | .reading .. => 1
  | .programming .. => 2

/-- Erase slot states (R99). -/
def Slot.code : Slot → Nat
  | .idle => 0
  | .erasing _ => 1
  | .counting _ => 2
  | .retiring .. => 3

/-- Die states (R114). -/
def DieState.code : DieState → Nat
  | .idle => 0
  | .reading .. => 1
  | .programming .. => 2
  | .erasing _ => 3
  | .pausing .. => 4
  | .held .. => 5
  | .heldReading .. => 6
  | .resetting .. => 7

/-- Operations in the die bytes (section 11.9). -/
def DieOp.code : DieOp → Nat
  | .readLine .. => 1
  | .readTag _ => 2
  | .programLine .. => 3
  | .programTag .. => 4
  | .eraseSector _ => 5

/-- Requesters in the die bytes (section 11.9). -/
def Requester.code : Requester → Nat
  | .hostPort => 1
  | .lane => 2
  | .relocation => 3
  | .eraseSlot => 4
  | .release => 5
  | .scanner => 6

/-- Host port states (R131). -/
def Port.code : Port → Nat
  | .idle | .completed .. | .inReset _ => 0
  | .reading .. => 1
  | .writing _ => 2
  | .holding _ => 3

/-- What the held cycle waits for (R144, R172, section 11.9). The spec names no code for a read held in
READING; it is reported as hex 00 (DESIGN CHOICE, log 30). -/
def heldCycleCode (s : State) : Nat :=
  match s.host.port with
  | .writing _ => if s.power.op = .powerdown then 2 else 1
  | .holding _ => 3
  | .reading (.abandoned (some _)) _ => 4
  | .reading (.abandoned none) _ | .reading (.cycle _) _ | .idle | .completed .. | .inReset _ => 0

/-! ### The status block -/

/-- The job of a relocation in flight. -/
def Engine.job : Engine → Option Job
  | .idle => none
  | .awaitingSpare j | .claiming j _ _ _ | .copying j _ _ _ | .sealing j _ _ | .retiringSource j _
  | .retiringTarget j _ _ _ => some j

/-- The target of a relocation in flight (R79). -/
def Engine.target : Engine → Option Phys
  | .claiming _ t _ _ | .copying _ t _ _ | .sealing _ t _ | .retiringTarget _ t _ _ => some t
  | .idle | .awaitingSpare _ | .retiringSource .. => none

/-- The copy position (R79). -/
def Engine.position : Engine → Option Pos
  | .copying _ _ _ pos => some pos
  | .idle | .awaitingSpare _ | .claiming .. | .sealing .. | .retiringSource ..
  | .retiringTarget .. => none

/-- The items of a slot. -/
def Slot.items : Slot → Option SlotItems
  | .idle => none
  | .erasing i | .counting i | .retiring i _ => some i

/-- The erase record of the erase in progress at a die (R122). -/
def DieState.eraseRun : DieState → Option EraseRun
  | .erasing run | .held run _ | .heldReading run _ _ _ => some run
  | .pausing _ run _ _ => run
  | .idle | .reading .. | .programming .. | .resetting .. => none

/-- The operation in progress at a die and its requester, coded (section 11.9). -/
def DieState.opBytes : DieState → List Byte
  | .idle => [0x00#8, 0x00#8]
  | .reading r _ | .programming r _ | .heldReading _ r _ _ =>
    byte1 r.op.code ++ byte1 r.requester.code
  | .erasing _ | .held .. => byte1 5 ++ byte1 4
  | .pausing .. => [0x06#8, 0x00#8]
  | .resetting .. => [0x07#8, 0x00#8]

/-- The 8 bytes of a die in the status block (R130). -/
def Die.statusBytes (die : Die) : List Byte :=
  byte1 die.state.code ++ die.state.opBytes ++ byte1 (die.waiting.countP Request.isHostRead) ++
    byte1 (die.waiting.countP Request.isInternal) ++
    byte1 (die.waiting.countP Request.isEraseStart) ++
    match die.state.eraseRun with
    | some run => byte1 run.pauses ++ boolByte (progressInterval ≤ run.progress)
    | none => absent 2

/-- The 4 bytes of an erase slot (R111). -/
def Slot.statusBytes (x : Slot) : List Byte :=
  byte1 x.code ++
    match x.items with
    | some i => boolByte i.urgent ++ physBytes (some i.phys)
    | none => absent 3

/-- The 4 bytes of the last long command (R169). -/
def LastLong.statusBytes : Option LastLong → List Byte
  | none => [0x00#8] ++ absent 3
  | some ⟨.flush, done⟩ => [0x01#8] ++ boolByte done ++ absent 2
  | some ⟨.release l, done⟩ => [0x02#8] ++ boolByte done ++ sectorBytes (some l)

/-- The number of members of a set (R32, R42). -/
def setCount (s : State) (m : Membership) : Nat :=
  s.acct.recs.countP fun c => c.2.membership == m

/-- Bytes 27 to 41, the relocation engine (R98). -/
def relocationStatus (s : State) : List Byte :=
  byte1 s.reloc.engine.code ++
    (match s.reloc.engine.job with
      | some j => byte1 j.reason.code ++ sectorBytes (some j.sector)
      | none => absent 3) ++
    physBytes s.reloc.engine.target ++
    (match s.reloc.engine.job with
      | some j => byte1 j.failedTargets
      | none => absent 1) ++
    (match s.reloc.engine.position with
      | some pos => beBytes 2 pos.val
      | none => absent 2) ++
    beBytes 2 s.reloc.queue.length ++ genBytes s.reloc.generation

/-- Bytes 0 to 14: power, scan, fault queue, last long command, WMB. -/
def statusHead (s : State) : List Byte :=
  byte1 s.power.op.code ++ byte1 (degradedCode s.power.degraded) ++
    flagByte [s.power.pfail, s.link.faultAttention, s.link.degradedAttention, s.dies.die0.offline,
      s.dies.die1.offline, commandInProgress s] ++
    beBytes 2 s.scan.judged ++ byte1 s.link.faults.length ++ [s.link.overflow] ++
    LastLong.statusBytes s.link.lastLong ++ byte1 (s.wmb.entries.countP Entry.isOpen) ++
    byte1 (s.wmb.entries.countP Entry.isSealed) ++
    byte1 (s.wmb.entries.countP Entry.isCommitting) ++ byte1 s.wmb.entries.length

/-- Bytes 15 to 26: the members of the six sets, in membership order. -/
def setsStatus (s : State) : List Byte :=
  [Membership.mapped, .target, .spare, .queuedForErase, .erasing, .retired].flatMap fun m =>
    beBytes 2 (setCount s m)

/-- The status block, 76 bytes (section 11.9). -/
def statusBlock (s : State) : List Byte :=
  statusHead s ++ setsStatus s ++ relocationStatus s ++
    byte1 s.lanes.die0.code ++ byte1 s.lanes.die1.code ++
    s.erase.slots.die0.statusBytes ++ s.erase.slots.die1.statusBytes ++
    beBytes 2 s.erase.pauseList.length ++
    s.dies.die0.statusBytes ++ s.dies.die1.statusBytes ++
    byte1 s.host.port.code ++ byte1 (heldCycleCode s) ++
    beBytes 2 s.wmb.commitDelay.toNat ++ beBytes 2 s.host.threshold.toNat

/-! ### Fault records -/

/-- The fields a record carries, each where its kind carries it (R174). -/
structure RecordFields where
  kind : Nat
  line : Option LineNo
  sector : Option Sector
  phys : Option Phys
  region : Option (Fin 16)
  die : Option DieId
  count : Option Nat
  reason : Option DegradedReason
  deriving DecidableEq, Repr

/-- The fields of no kind. -/
def RecordFields.bare (kind : Nat) : RecordFields :=
  { kind := kind, line := none, sector := none, phys := none, region := none, die := none
    count := none, reason := none }

/-- The kind code and the fields of a record (R174, section 11.9). -/
def RecordBody.fields : RecordBody → RecordFields
  | .regionWrite n i => { RecordFields.bare 1 with line := some n, region := some i }
  | .regionRead n i => { RecordFields.bare 2 with line := some n, region := some i }
  | .degradedWrite n => { RecordFields.bare 3 with line := some n }
  | .clearOnlyLoss n i => { RecordFields.bare 4 with line := some n, region := some i }
  | .relocationLoss l n => { RecordFields.bare 5 with sector := some l, count := some n }
  | .programFail p n => { RecordFields.bare 6 with phys := some p, line := n }
  | .eraseFail p => { RecordFields.bare 7 with phys := some p }
  | .pauseTimeout d p => { RecordFields.bare 8 with die := some d, phys := some p }
  | .garbledTag p => { RecordFields.bare 9 with phys := some p }
  | .releaseDiscard l n => { RecordFields.bare 10 with sector := some l, count := some n }
  | .degradedEntered n r => { RecordFields.bare 11 with count := some n, reason := some r }
  | .dieOffline d => { RecordFields.bare 12 with die := some d }

/-- The number of a die. -/
def DieId.number : DieId → Nat
  | .die0 => 0
  | .die1 => 1

/-- The bytes of a field that may be absent. -/
def fieldOr {α : Type} (width : Nat) (x : Option α) (f : α → Nat) : List Byte :=
  match x with
  | some v => beBytes width (f v)
  | none => absent width

/-- The 16 bytes of a fault record (section 11.9). -/
def FaultRecord.bytes (r : FaultRecord) : List Byte :=
  let f := r.body.fields
  byte1 f.kind ++ beBytes 2 r.sequence.toNat ++
    flagByte [f.line.isSome, f.sector.isSome, f.phys.isSome, f.region.isSome, f.die.isSome,
      f.count.isSome, f.reason.isSome] ++
    fieldOr 3 f.line (·.val) ++ fieldOr 2 f.sector (·.val) ++ fieldOr 2 f.phys (·.val) ++
    fieldOr 1 f.region (·.val) ++ fieldOr 1 f.die DieId.number ++ fieldOr 2 f.count (·) ++
    fieldOr 1 f.reason (fun r => degradedCode (some r))

/-! ### Queries -/

/-- The bytes of a region entry (R151). -/
def Region.bytes (r : Region) : List Byte :=
  beBytes 2 r.first.val ++ beBytes 2 r.last.val ++ byte1 r.mode.code ++ boolByte r.enabled ++
    boolByte r.frozen

/-- The reason of the relocation in flight for a sector. -/
def flightReason (s : State) (l : Sector) : Option RelocReason :=
  match s.reloc.engine.job with
  | some j => if j.sector = l then some j.reason else none
  | none => none

/-- The relocation field, reason and target in the MAP QUERY answer (section 11.9). -/
def relocFieldBytes (s : State) (l : Sector) : List Byte :=
  match (mapEntry s l).reloc with
  | .absent => [0x00#8] ++ absent 3
  | .queued r => [0x01#8] ++ byte1 r.code ++ absent 2
  | .inFlight t _ => [0x02#8] ++ fieldOr 1 (flightReason s l) RelocReason.code ++ physBytes t

/-- Whether a relocation field carries the backing-pending mark. -/
def RelocField.backingPending : RelocField → Bool
  | .inFlight _ b => b
  | .absent | .queued _ => false

/-- The data of MAP QUERY (R42, section 11.9). -/
def mapBytes (s : State) (l : Sector) : List Byte :=
  let e := mapEntry s l
  boolByte e.binding.isSome ++ physBytes (e.binding.map (·.phys)) ++
    genBytes (e.binding.map (·.gen)) ++ relocFieldBytes s l ++
    flagByte [e.releasing, e.suspect, e.reloc.backingPending]

/-- The reason a physical sector stands on the retired list with (R38). -/
def retiredReason (s : State) (p : Phys) : Option RetireReason :=
  (s.acct.retired.find? fun r => r.phys == p).map (·.reason)

/-- The position of a physical sector in the spare pool or the erase queue (section 11.9). -/
def queuePosition (s : State) (p : Phys) : Option Nat :=
  (s.acct.pool.findIdx? (· == p)).or (s.acct.eraseQueue.findIdx? fun r => r.phys == p)

/-- The data of SECTOR QUERY (R42, section 11.9). -/
def physSectorBytes (s : State) (p : Phys) : List Byte :=
  fieldOr 1 (membershipOf s p) Membership.code ++
    fieldOr 3 ((Table.find s.acct.recs p.val).map (·.count)) (·.toNat) ++
    fieldOr 1 (retiredReason s p) (·.code.toNat) ++ fieldOr 2 (queuePosition s p) (·)

/-- The ten counters, 4 bytes each, in the order of the Counters table (R176). -/
def Counters.bytes (c : Counters) : List Byte :=
  [c.hostReads, c.hostWrites, c.longStalls, c.refusedWrites, c.linesCommitted, c.relocationsDone,
    c.linesLost, c.erasesDone, c.pauses, c.sectorsRetired].flatMap fun n => beBytes 4 n.toNat

end Sys2Proof.Machine
end

