-- ==== Sys2Proof/Machine/Link.lean ====
section
/-!
DEFINITION. The management link's commands (chapter 11): the answer of each by operating state and
link state (R168), its checks, its effect and its response frame.
-/

namespace Sys2Proof.Machine

open Sys2Proof

/-! ### Responses -/

/-- The response codes (section 11.9). -/
inductive ResponseCode where
  | ok
  | accepted
  | done
  | empty
  | busy
  | invalid
  | frozen
  | starting
  | refused
  | check
  deriving DecidableEq, Repr

/-- The byte of a response code (section 11.9). -/
def ResponseCode.byte : ResponseCode → Byte
  | .ok => 0x00
  | .accepted => 0x01
  | .done => 0x02
  | .empty => 0x03
  | .busy => 0x10
  | .invalid => 0x11
  | .frozen => 0x12
  | .starting => 0x13
  | .refused => 0x14
  | .check => 0x15

/-- A response frame (section 11.9): code, the command answered, data length, data, check. -/
def responseFrame (code : ResponseCode) (command : Byte) (data : List Byte) : List Byte :=
  withCheck ([code.byte, command, BitVec.ofNat 8 data.length] ++ data)

/-- The response buffer replaced (R167). -/
def respond (code : ResponseCode) (command : Byte) (data : List Byte) (s : State) : State :=
  s.setLink { s.link with response := responseFrame code command data }

/-- The part's 7-bit target address on the I2C bus (R167). -/
def targetAddress : BitVec 7 := 0x4D#7

/-- The first `n` bytes that a read transaction at an address returns (R167): the response buffer as it
stands, hex FF beyond its end; none where the part is not addressed and does not answer. Reading
changes nothing, so it is a function of the state and no command. -/
def linkRead (address : BitVec 7) (n : Nat) (s : State) : Option (List Byte) :=
  if address = targetAddress then
    some (s.link.response.take n ++ List.replicate (n - s.link.response.length) 0xFF#8)
  else none

/-- The refusal that the operating state gives a command other than STATUS, READ FAULT and READ
COUNTERS (R168). -/
def stateRefusal (s : State) : Option ResponseCode :=
  match s.power.op with
  | .starting => some .starting
  | .failed => some .refused
  | .running | .powerdown => none

/-- A command judged against the operating state (R168): refused without data, or answered. -/
def unlessRefused (command : Byte) (answer : State → State) (s : State) : State :=
  match stateRefusal s with
  | some code => respond code command [] s
  | none => answer s

/-- READ FAULT and READ COUNTERS judged against the operating state (R168). -/
def unlessStarting (command : Byte) (answer : State → State) (s : State) : State :=
  if s.power.op = .starting then respond .starting command [] s else answer s

/-- FLUSH and RELEASE SECTOR judged against the operating state and the link state (R168). -/
def unlessBusy (command : Byte) (answer : State → State) (s : State) : State :=
  unlessRefused command
    (fun s => if commandInProgress s then respond .busy command [] s else answer s) s

/-! ### Long commands -/

/-- The last long command recorded (R169). -/
def setLastLong (command : LongCommand) (done : Bool) (s : State) : State :=
  s.setLink { s.link with lastLong := some ⟨command, done⟩ }

/-- A long command completes in its arrival happening, or is accepted (R169). -/
def answerLong (command : LongCommand) (code : Byte) (done : Bool) (s : State) : State :=
  respond (if done then .done else .accepted) code [] (setLastLong command done s)

/-- FLUSH reaches the WMB (R12, R11, R170). -/
def acceptFlush (s : State) : State :=
  let sealed := sealAll (s.setWmb { s.wmb with boundary := some s.wmb.openCounter })
  if drained sealed.wmb then
    answerLong .flush 0x02 true (sealed.setWmb { sealed.wmb with boundary := none })
  else answerLong .flush 0x02 false sealed

/-- The sector's record leaves the relocation queue and its field becomes none (R171 item 3, R78). -/
def dequeueReloc (l : Sector) (s : State) : State :=
  match (mapEntry s l).reloc with
  | .queued _ =>
    setMapEntry l { mapEntry s l with reloc := .absent }
      (s.setReloc { s.reloc with queue := s.reloc.queue.filter fun r => r.sector ≠ l })
  | .absent | .inFlight _ _ => s

/-- Whether a release of the sector is refused BUSY (R171 item 1). -/
def releaseBusy (s : State) (l : Sector) : Bool :=
  (s.wmb.entries.any fun e => e.sector == l && e.isCommitting) ||
    match (mapEntry s l).reloc with
    | .inFlight _ _ => true
    | .absent | .queued _ => false

/-- The release's discard (R171 item 2, R19). -/
def discardStaged (l : Sector) (s : State) : State :=
  let discarded := discardWhere (fun e => e.sector == l && !e.isCommitting) s
  if discarded.2 = 0 then discarded.1 else record (.releaseDiscard l discarded.2) discarded.1

/-- RELEASE SECTOR acts, in its order (R171). -/
def acceptRelease (l : Sector) (s : State) : State :=
  if releaseBusy s l then respond .busy 0x32 [] s
  else
    let left := dequeueReloc l (discardStaged l s)
    match (mapEntry left l).binding with
    | none => answerLong (.release l) 0x32 true left
    | some b => settle (startRelease l b (answerLong (.release l) 0x32 false left))

/-! ### Short commands -/

/-- A region index of 0 to 15 (R148, R150, R151). -/
def regionIndex (b : Byte) : Option (Fin 16) :=
  if h : b.toNat < 16 then some ⟨b.toNat, h⟩ else none

/-- The region table with an entry replaced. -/
def setRegion (i : Fin 16) (r : Region) (s : State) : State :=
  s.setRegions (Table.store Region.atPor s.regions i.val r)

/-- READ REGION (R151). -/
def answerReadRegion (index : Byte) (s : State) : State :=
  match regionIndex index with
  | some i => respond .ok 0x10 (regionAt s i).bytes s
  | none => respond .invalid 0x10 [] s

/-- The four values of a WRITE REGION, where none is out of range (R148). -/
def givenRegion (first last : BitVec 16) (mode enabled : Byte) : Option Region :=
  match modeOf mode with
  | some m =>
    if h : first.toNat < 16384 ∧ last.toNat < 16384 then
      if first.toNat ≤ last.toNat then
        if enabled = 0x00#8 ∨ enabled = 0x01#8 then
          some { first := ⟨first.toNat, h.1⟩, last := ⟨last.toNat, h.2⟩, mode := m
                 enabled := enabled == 0x01#8, frozen := false }
        else none
      else none
    else none
  | none => none

/-- WRITE REGION (R148), its conditions tested in order. -/
def answerWriteRegion (index : Byte) (first last : BitVec 16) (mode enabled : Byte) (s : State) :
    State :=
  match regionIndex index, givenRegion first last mode enabled with
  | some i, some r =>
    if (regionAt s i).frozen then respond .frozen 0x11 [] s
    else respond .ok 0x11 [] (setRegion i r s)
  | _, _ => respond .invalid 0x11 [] s

/-- FREEZE REGION (R150). -/
def answerFreezeRegion (index : Byte) (s : State) : State :=
  match regionIndex index with
  | some i => respond .ok 0x12 [] (setRegion i { regionAt s i with frozen := true } s)
  | none => respond .invalid 0x12 [] s

/-- READ FAULT (R175): the oldest record is removed and reported with the overflow count, which
becomes 0. -/
def answerReadFault (s : State) : State :=
  match s.link.faults with
  | r :: rest =>
    respond .ok 0x22 (s.link.overflow :: r.bytes)
      (s.setLink { s.link with faults := rest, overflow := 0 })
  | [] =>
    respond .empty 0x22 (s.link.overflow :: absent 16) (s.setLink { s.link with overflow := 0 })

/-- MAP QUERY (R42, R172). -/
def answerMapQuery (n : BitVec 16) (s : State) : State :=
  if h : n.toNat < 1024 then respond .ok 0x30 (mapBytes s ⟨n.toNat, h⟩) s
  else respond .invalid 0x30 [] s

/-- SECTOR QUERY (R42, R172). -/
def answerSectorQuery (n : BitVec 16) (s : State) : State :=
  if h : n.toNat < 1056 then respond .ok 0x31 (physSectorBytes s ⟨n.toNat, h⟩) s
  else respond .invalid 0x31 [] s

/-- RELEASE SECTOR (R171): a sector number above 1023 is refused INVALID. -/
def answerRelease (n : BitVec 16) (s : State) : State :=
  if h : n.toNat < 1024 then acceptRelease ⟨n.toNat, h⟩ s else respond .invalid 0x32 [] s

/-- The OPEN entries that a new commit delay finds overdue (R8). -/
def overdue (delay : BitVec 16) (e : Entry) : Bool :=
  match e.stage with
  | .opened age => decide (delay.toNat ≤ age)
  | .sealed _ | .committing _ _ => false

/-- SET TIMING (R173, R8, R143). -/
def answerSetTiming (delay threshold : BitVec 16) (s : State) : State :=
  if threshold = 0 then respond .invalid 0x40 [] s
  else
    let set := (s.setWmb { s.wmb with commitDelay := delay }).setHost
      { s.host with threshold := threshold }
    respond .ok 0x40 [] (countStall (sealWhere (overdue delay) set))

/-- EVENT ENABLE (R173). -/
def answerEventEnable (enables : Byte) (s : State) : State :=
  if enables.toNat < 4 then
    respond .ok 0x41 [enables] (s.setLink { s.link with
      faultAttention := enables.getLsbD 0, degradedAttention := enables.getLsbD 1 })
  else respond .invalid 0x41 [] s

/-! ### Meanings -/

/-- STATUS (R172). -/
def execStatus (s : State) : Host.Outcome State Fault Refusal :=
  .next (respond .ok 0x01 (statusBlock s) s)

/-- FLUSH (R168, R170). -/
def execFlush (s : State) : Host.Outcome State Fault Refusal :=
  .next (unlessBusy 0x02 acceptFlush s)

/-- READ REGION (R168, R151). -/
def execReadRegion (index : Byte) (s : State) : Host.Outcome State Fault Refusal :=
  .next (unlessRefused 0x10 (answerReadRegion index) s)

/-- WRITE REGION (R168, R148). -/
def execWriteRegion (index : Byte) (first last : BitVec 16) (mode enabled : Byte) (s : State) :
    Host.Outcome State Fault Refusal :=
  .next (unlessRefused 0x11 (answerWriteRegion index first last mode enabled) s)

/-- FREEZE REGION (R168, R150). -/
def execFreezeRegion (index : Byte) (s : State) : Host.Outcome State Fault Refusal :=
  .next (unlessRefused 0x12 (answerFreezeRegion index) s)

/-- READ COUNTERS (R168, R176). -/
def execReadCounters (s : State) : Host.Outcome State Fault Refusal :=
  .next (unlessStarting 0x20 (fun s => respond .ok 0x20 s.link.counters.bytes s) s)

/-- CLEAR COUNTERS (R168, R176). -/
def execClearCounters (s : State) : Host.Outcome State Fault Refusal :=
  .next (unlessRefused 0x21
    (fun s => respond .ok 0x21 [] (s.setLink { s.link with counters := Counters.zero })) s)

/-- READ FAULT (R168, R175). -/
def execReadFault (s : State) : Host.Outcome State Fault Refusal :=
  .next (unlessStarting 0x22 answerReadFault s)

/-- MAP QUERY (R168, R42). -/
def execMapQuery (sector : BitVec 16) (s : State) : Host.Outcome State Fault Refusal :=
  .next (unlessRefused 0x30 (answerMapQuery sector) s)

/-- SECTOR QUERY (R168, R42). -/
def execSectorQuery (phys : BitVec 16) (s : State) : Host.Outcome State Fault Refusal :=
  .next (unlessRefused 0x31 (answerSectorQuery phys) s)

/-- RELEASE SECTOR (R168, R171). -/
def execReleaseSector (sector : BitVec 16) (s : State) : Host.Outcome State Fault Refusal :=
  .next (unlessBusy 0x32 (answerRelease sector) s)

/-- SET TIMING (R168, R173). -/
def execSetTiming (delay threshold : BitVec 16) (s : State) : Host.Outcome State Fault Refusal :=
  .next (unlessRefused 0x40 (answerSetTiming delay threshold) s)

/-- EVENT ENABLE (R168, R173). -/
def execEventEnable (enables : Byte) (s : State) : Host.Outcome State Fault Refusal :=
  .next (unlessRefused 0x41 (answerEventEnable enables) s)

/-- A frame that stands runs the command it spells (R167, log 22). -/
def runFrame (c : Instr) (s : State) : Host.Outcome State Fault Refusal :=
  match c with
  | .status => execStatus s
  | .flush => execFlush s
  | .readRegion i => execReadRegion i s
  | .writeRegion i f l m e => execWriteRegion i f l m e s
  | .freezeRegion i => execFreezeRegion i s
  | .readCounters => execReadCounters s
  | .clearCounters => execClearCounters s
  | .readFault => execReadFault s
  | .mapQuery n => execMapQuery n s
  | .sectorQuery n => execSectorQuery n s
  | .releaseSector n => execReleaseSector n s
  | .setTiming d t => execSetTiming d t s
  | .eventEnable e => execEventEnable e s
  | .por | .rstAsserted | .rstReleased | .pfailAsserted | .pfailReleased | .flushFallingEdge
  | .hostRead .. | .hostWrite .. | .hostCycleAbandoned | .hostCycleEnd | .commitDelayExpiry _
  | .longStall | .heldWritePresented | .flushDrain | .laneTake _ | .laneReadLineResult _
  | .laneProgramLineResult .. | .relocationTake | .spareReport | .claimResult _
  | .copyReadLineResult | .copyProgramLineResult _ | .sealResult _ | .sourceRetireResult _
  | .targetRetireResult _ | .eraseStart _ | .eraseSectorResult .. | .countResult ..
  | .eraseRetireResult .. | .releaseProgramResult _ | .releaseRetireResult _
  | .hostReadLineResult | .readTagResult _ | .pauseAnswer .. | .progressIntervalReached _
  | .operationTimeout _ | .pauseTimeout _ | .dieResetTimeout _ | .dieReadyAfterReset _
  | .dieReadyAfterTimeout _ | .dieReadyAfterPauseTimeout _ | .dieReadyAfterAbandon _ | .scanEnd
  | .badCommandFrame _ => .next s

/-- BAD_COMMAND_FRAME (R167): CHECK with command code hex FF, or INVALID. -/
def execBadCommandFrame (bytes : List Byte) (s : State) : Host.Outcome State Fault Refusal :=
  match judgeFrame bytes with
  | .badCheck => .next (respond .check 0xFF#8 [] s)
  | .invalid code => .next (respond .invalid code [] s)
  | .command c => runFrame c s

end Sys2Proof.Machine
end

