-- ==== Sys2Proof/Machine/Lanes.lean ====
section
/-!
DEFINITION. The commit lanes (chapter 4): choice of an entry, read, bit test, program in place, and
the ways a commit ends.
-/

namespace Sys2Proof.Machine

open Sys2Proof

/-- The state with a lane replaced. -/
def setLane (d : DieId) (l : Lane) (s : State) : State := s.setLanes (s.lanes.set d l)

/-- Whether an entry is eligible (R15): no non-FREE entry for its line has an older open order. -/
def eligible (s : State) (e : Entry) : Bool :=
  !s.wmb.entries.any fun x => x.line == e.line && x.openOrder < e.openOrder

/-- Whether an entry is a candidate for lane `d` (R61). -/
def isCandidate (s : State) (d : DieId) (e : Entry) : Bool :=
  let m := mapEntry s e.sector
  e.isSealed && (m.binding.map fun b => dieOf b.phys) == some d && m.reloc == .absent &&
    !m.releasing && eligible s e

/-- The seal order of an entry that is not OPEN (R2). -/
def Entry.sealOrder (e : Entry) : Nat :=
  match e.stage with
  | .sealed o | .committing o _ => o
  | .opened _ => 0

/-- The entry with the oldest seal order of a list. -/
def oldestSealed : List Entry → Option Entry
  | [] => none
  | e :: rest =>
    match oldestSealed rest with
    | some x => if x.sealOrder < e.sealOrder then some x else some e
    | none => some e

/-- The candidate lane `d` chooses (R62): the one with the oldest seal order. -/
def laneChoice (s : State) (d : DieId) : Option Entry :=
  oldestSealed (s.wmb.entries.filter (isCandidate s d))

/-- An entry taken by a lane (R16). -/
def Entry.takenBy (d : DieId) (e : Entry) : Entry :=
  match e.stage with
  | .sealed o => { e with stage := .committing o (.lane d) }
  | .opened _ | .committing _ _ => e

/-- An entry returned by its taker: SEALED again with its seal order (R16). -/
def Entry.returned (e : Entry) : Entry :=
  match e.stage with
  | .committing o _ => { e with stage := .sealed o }
  | .opened _ | .sealed _ => e

/-- The lane's take (R62): the entry becomes COMMITTING, READ LINE is issued on the bound physical
sector. -/
def laneTakes (d : DieId) (s : State) : State :=
  match laneChoice s d with
  | none => s
  | some e =>
    match boundPhys s e.sector with
    | none => s
    | some p =>
      issue .lane (.readLine p (posOf e.line))
        (setLane d (.reading e.openOrder p) (updateEntry e.openOrder (Entry.takenBy d) s))

/-- The commit ends with the line on the medium (R66, R67): the entry is FREE, LINES COMMITTED IN
PLACE increases, the lane is IDLE. -/
def laneCommitted (d : DieId) (id : Nat) (s : State) : State :=
  setLane d .idle (countUp .linesCommitted 1 (freeWhere (fun e => e.openOrder == id) s))

/-- A failing bit test in a CLEAR-ONLY region (R68): the entry is discarded with a CLEAR-ONLY LOSS
record. -/
def laneLoses (d : DieId) (e : Entry) (region : Fin 16) (s : State) : State :=
  setLane d .idle (record (.clearOnlyLoss e.line region)
    (discardWhere (fun x => x.openOrder == e.openOrder) s).1)

/-- A failing bit test in any other mode (R69): the entry is returned and the sector queued with
OVERWRITE. -/
def laneHandsOff (d : DieId) (e : Entry) (s : State) : State :=
  setLane d .idle (requestReloc e.sector .overwrite (updateEntry e.openOrder Entry.returned s))

/-- The lane's READ LINE returns the medium line (R63 to R69). -/
def laneTests (d : DieId) (medium : LineData) (s : State) : State :=
  match s.lanes.get d with
  | .reading id p =>
    match entryOf s id with
    | none => s
    | some e =>
      let target := layOver e.held medium
      if bitTest medium target then
        if target = medium then laneCommitted d id s
        else
          issue .lane (.programLine p (posOf e.line) target)
            (setLane d (.programming id p medium target) s)
      else
        match governing s (pageOfLine e.line) with
        | some i =>
          if (regionAt s i).mode = .clearOnly then laneLoses d e i s else laneHandsOff d e s
        | none => laneHandsOff d e s
  | .idle | .programming .. => s

/-- TIMEOUT for the lane's READ LINE (R63): the entry is returned, the lane is IDLE, no record. -/
def laneReadTimeout (d : DieId) (s : State) : State :=
  match s.lanes.get d with
  | .reading id _ => setLane d .idle (updateEntry id Entry.returned s)
  | .idle | .programming .. => s

/-- An in-place program fails (R70): the entry is returned, the sector marked suspect (R28) and queued
with FAILURE, a PROGRAM FAIL record made, the lane IDLE. -/
def laneProgramFails (d : DieId) (s : State) : State :=
  match s.lanes.get d with
  | .programming id p _ _ =>
    match entryOf s id with
    | none => s
    | some e =>
      let returned := updateEntry id Entry.returned s
      let suspected := setMapEntry e.sector { mapEntry returned e.sector with suspect := true } returned
      setLane d .idle
        (record (.programFail p (some e.line)) (requestReloc e.sector .failure suspected))
  | .idle | .reading .. => s

/-- The lane's PROGRAM LINE ends (R67, R70). -/
def laneProgrammed (d : DieId) (pass : Bool) (s : State) : State :=
  match s.lanes.get d with
  | .programming id _ _ _ => if pass then laneCommitted d id s else laneProgramFails d s
  | .idle | .reading .. => s

/-! ### Meanings -/

/-- LANE_TAKE (R61, R62, R75): in RUNNING or POWERDOWN an IDLE lane takes its candidate. -/
def execLaneTake (d : DieId) (s : State) : Host.Outcome State Fault Refusal :=
  .next (if s.lanes.get d = .idle ∧ (s.power.op = .running ∨ s.power.op = .powerdown) then
    settle (laneTakes d s) else s)

/-- LANE_READ_LINE_RESULT (R63 to R69, R119). -/
def execLaneReadLineResult (d : DieId) (s : State) : Host.Outcome State Fault Refusal :=
  .next (match answering s d .lane with
    | some (.readLine p pos) =>
      settle (laneTests d (s.medium.line p pos) (endOperation d s))
    | _ => s)

/-- LANE_PROGRAM_LINE_RESULT (R67, R70, R119). -/
def execLaneProgramLineResult (d : DieId) (ok : Bool) (s : State) :
    Host.Outcome State Fault Refusal :=
  .next (match answering s d .lane with
    | some (.programLine p pos data) =>
      let ended := endProgram (.programLine p pos data) ok (endOperation d s)
      settle (laneProgrammed d ended.2 ended.1)
    | _ => s)

end Sys2Proof.Machine
end

