-- ==== Sys2Proof/Machine/Erase.lean ====
section
/-!
DEFINITION. The erase engine (chapter 6): starts, results of erases and of the tag programs that
follow, retirement, and erases cut short.
-/

namespace Sys2Proof.Machine

open Sys2Proof

/-- The state with an erase slot replaced. -/
def setSlot (d : DieId) (x : Slot) (s : State) : State :=
  s.setErase { s.erase with slots := s.erase.slots.set d x }

/-! ### Starts -/

/-- Whether the relocation engine works on die `d` (R100): in CLAIMING, COPYING, SEALING or RETIRING
TARGET with its source, its target or the old physical sector it is retiring on the die. -/
def engineOnDie (e : Engine) (d : DieId) : Bool :=
  match e with
  | .claiming j t _ _ | .copying j t _ _ | .sealing j t _ | .retiringTarget j t _ _ =>
    dieOf t == d || (j.source.map dieOf) == some d
  | .retiringSource j old => dieOf old == d || (j.source.map dieOf) == some d
  | .idle | .awaitingSpare _ => false

/-- Whether die `d` has pending work (R100). -/
def pendingWork (s : State) (d : DieId) : Bool :=
  s.wmb.entries.any (isCandidate s d) || s.lanes.get d != .idle ||
    (s.reloc.queue.any fun r => (boundPhys s r.sector).map dieOf == some d) ||
    (!s.reloc.queue.isEmpty && (s.acct.pool.head?.map dieOf) == some d) ||
    engineOnDie s.reloc.engine d

/-- The oldest record of the erase queue whose physical sector lies on die `d` (R37). -/
def oldestQueued (s : State) (d : DieId) : Option EraseRecord :=
  s.acct.eraseQueue.find? fun r => dieOf r.phys == d

/-- Whether the spare pool stands below its low-water mark (R36). -/
def belowLowWater (s : State) : Bool := s.acct.pool.length < lowWater

/-- Whether the conditions of a start on die `d` hold, the queued record apart (R101). The die's
scheduler has reported it IDLE with no request waiting, and the report still stands. -/
def eraseMayStart (s : State) (d : DieId) : Bool :=
  s.power.op == .running && s.erase.slots.get d == .idle && (s.dies.get d).reported &&
    (!pendingWork s d || belowLowWater s)

/-- The start (R101): the sector leaves the erase queue and joins ERASING, the slot takes it with its
start class, and ERASE SECTOR is issued. -/
def startErase (d : DieId) (r : EraseRecord) (s : State) : State :=
  let left := s.setAcct { s.acct with
    eraseQueue := s.acct.eraseQueue.filter fun x => x.phys ≠ r.phys }
  issue .eraseSlot (.eraseSector r.phys)
    (setSlot d (.erasing { phys := r.phys, count := r.count, urgent := belowLowWater s })
      (moveTo .erasing r.phys left))

/-! ### What a slot does at the ends of its operations -/

/-- A sector leaves the pause time-out list, if it is on it (R103, R106). -/
def leavePauseList (p : Phys) (s : State) : State :=
  s.setErase { s.erase with pauseList := s.erase.pauseList.filter fun x => x ≠ p }

/-- The slot issues the RETIRE program and enters RETIRING (R104, R105, R107). -/
def slotRetires (d : DieId) (i : SlotItems) (reason : RetireReason) (s : State) : State :=
  issue .eraseSlot (.programTag i.phys (.retire reason)) (setSlot d (.retiring i reason) s)

/-- An erase passes (R103), in its order. -/
def erasePasses (d : DieId) (i : SlotItems) (s : State) : State :=
  setSlot d (.counting i)
    (issue .eraseSlot (.programTag i.phys (.count (nextCount i.count)))
      (leavePauseList i.phys (countUp .erasesDone 1 s)))

/-- An erase ends FAIL or times out (R105). -/
def eraseFails (d : DieId) (i : SlotItems) (s : State) : State :=
  slotRetires d i .erase (record (.eraseFail i.phys) s)

/-- DEGRADED with reason SPARES is cleared when a join leaves the pool with 2 or more members (R40). -/
def clearDegraded (s : State) : State :=
  if s.power.degraded = some .spares ∧ 2 ≤ s.acct.pool.length then
    s.setPower { s.power with degraded := none }
  else s

/-- The COUNT program ends (R104). -/
def countEnds (d : DieId) (pass : Bool) (s : State) : State :=
  match s.erase.slots.get d with
  | .counting i =>
    if pass then clearDegraded (setSlot d .idle (joinPool i.phys (nextCount i.count) s))
    else slotRetires d i .tag (record (.programFail i.phys none) s)
  | .idle | .erasing _ | .retiring _ _ => s

/-- The RETIRE program of a slot ends (R106), in its order. -/
def slotRetireEnds (d : DieId) (pass : Bool) (s : State) : State :=
  match s.erase.slots.get d with
  | .retiring i reason =>
    let recorded := if pass then s else record (.programFail i.phys none) s
    setSlot d .idle (joinRetired i.phys reason (leavePauseList i.phys recorded))
  | .idle | .erasing _ | .counting _ => s

/-- TIMEOUT for an operation of the slot (R104 to R106, R120). -/
def slotTimeout (d : DieId) (op : DieOp) (s : State) : State :=
  match op with
  | .eraseSector _ =>
    match s.erase.slots.get d with
    | .erasing i => eraseFails d i s
    | .idle | .counting _ | .retiring _ _ => s
  | .programTag _ (.count _) => countEnds d false s
  | .programTag _ (.retire _) => slotRetireEnds d false s
  | .programTag _ (.claim _ _) | .programTag _ (.sealing _) | .programTag _ (.release _)
  | .readLine .. | .readTag _ | .programLine .. => s

/-- The slot's sector rejoins the tail of the erase queue and the slot enters IDLE (R107, R108). -/
def slotRejoins (d : DieId) (i : SlotItems) (s : State) : State :=
  setSlot d .idle (joinEraseQueue i.phys s)

/-- The report that the slot's erase was abandoned (R108, R120). A slot whose erase has ended
disregards it. -/
def abandonReported (d : DieId) (s : State) : State :=
  match s.erase.slots.get d with
  | .erasing i => slotRejoins d i s
  | .idle | .counting _ | .retiring _ _ => s

/-- The report of a pause time-out (R107): a first one rejoins the queue, a second one retires the
sector. A slot in COUNTING or RETIRING disregards it. -/
def pauseTimeoutReported (d : DieId) (s : State) : State :=
  match s.erase.slots.get d with
  | .erasing i =>
    if i.phys ∈ s.erase.pauseList then slotRetires d i .erase s
    else
      slotRejoins d i (s.setErase { s.erase with pauseList := s.erase.pauseList ++ [i.phys] })
  | .idle | .counting _ | .retiring _ _ => s

/-- Whether an erase start waits at a scheduler. -/
def Die.startWaits (die : Die) : Bool := die.waiting.any Request.isEraseStart

/-- The scheduler is asked to abandon the erase begun on its die (R128). In RESETTING the erase has
already been ended (log 17). -/
def abandonErase (d : DieId) (s : State) : State :=
  match (s.dies.get d).state with
  | .erasing _ | .held _ _ => dieReset d .abandonment s
  | .pausing p run _ t => setDieState d (.pausing p run run.isSome t) s
  | .heldReading run r _ t => setDieState d (.heldReading run r true t) s
  | .idle | .reading _ _ | .programming _ _ | .resetting _ _ _ => s

/-- A slot at the entry to POWERDOWN (R108): a waiting start is withdrawn, an erase begun is
abandoned, COUNT and RETIRE programs run on. -/
def slotPowersDown (d : DieId) (s : State) : State :=
  match s.erase.slots.get d with
  | .erasing i =>
    if (s.dies.get d).startWaits then
      slotRejoins d i (setDie d { s.dies.get d with
        waiting := (s.dies.get d).waiting.filter fun r => !r.isEraseStart } s)
    else abandonErase d s
  | .idle | .counting _ | .retiring _ _ => s

/-! ### Meanings -/

/-- ERASE_START (R100 to R102): the engine considers a start on the die, and starts if the conditions
hold. Where the scheduler has taken another request after its report of IDLE and no time has passed,
the other request came first: the slot and the sector enter ERASING and the start waits behind it
(R102, R118). How long after the report that can be is the model's choice (DESIGN CHOICE, log 29). -/
def execEraseStart (d : DieId) (s : State) : Host.Outcome State Fault Refusal :=
  .next (if eraseMayStart s d then
      match oldestQueued s d with
      | some r => settle (startErase d r s)
      | none => s
    else s)

/-- The erase whose result can be delivered now: of an ERASING die, of a PAUSING die before its NOT
ERASING, and of a die whose abandonment reset is not yet taken (R113, R114, R128, log 18). -/
def eraseAwaited (s : State) (d : DieId) : Bool :=
  match s.power.op, (s.dies.get d).state with
  | .failed, _ => false
  | _, .erasing _ | _, .pausing _ (some _) _ _ => true
  | _, .resetting .abandonment _ answered => !answered
  | _, _ => false

/-- The die state after the erase's own result (R114): IDLE, but PAUSING and RESETTING stay. -/
def eraseEnded (d : DieId) (s : State) : State :=
  match (s.dies.get d).state with
  | .erasing _ => setDieState d .idle s
  | .pausing p _ _ t => setDieState d (.pausing p none false t) s
  | .idle | .reading _ _ | .programming _ _ | .held _ _ | .heldReading _ _ _ _
  | .resetting _ _ _ => s

/-- ERASE_SECTOR_RESULT (R103, R105, R47, R58, R114, R119). -/
def execEraseSectorResult (d : DieId) (ok : Bool) (s : State) :
    Host.Outcome State Fault Refusal :=
  .next (match s.erase.slots.get d with
    | .erasing i =>
      if eraseAwaited s d then
        let ended := eraseEnded d s
        settle (if ok then
            erasePasses d i (ended.setMedium (ended.medium.eraseSector i.phys))
          else
            eraseFails d i ((ended.setMedium (ended.medium.cutErase ended.draws i.phys)).setDraws
              (ended.draws + 1)))
      else s
    | _ => s)

/-- COUNT_RESULT (R104, R34, R40, R119). -/
def execCountResult (d : DieId) (ok : Bool) (s : State) : Host.Outcome State Fault Refusal :=
  .next (match answering s d .eraseSlot with
    | some (.programTag p (.count n)) =>
      let ended := endProgram (.programTag p (.count n)) ok (endOperation d s)
      settle (countEnds d ended.2 ended.1)
    | _ => s)

/-- ERASE_RETIRE_RESULT (R106, R119). -/
def execEraseRetireResult (d : DieId) (ok : Bool) (s : State) : Host.Outcome State Fault Refusal :=
  .next (match answering s d .eraseSlot with
    | some (.programTag p (.retire reason)) =>
      let ended := endProgram (.programTag p (.retire reason)) ok (endOperation d s)
      settle (slotRetireEnds d ended.2 ended.1)
    | _ => s)

end Sys2Proof.Machine
end

