-- ==== Sys2Proof/Machine/Scan.lean ====
section
/-!
DEFINITION. The start-up scanner (chapter 10): reading tags, classification, candidates, the end of
the scan.
-/

namespace Sys2Proof.Machine

open Sys2Proof

/-- The scanner keeps a READ TAG outstanding for the next physical sector of a die (R156). -/
def scanReads (d : DieId) (p : Phys) (s : State) : State :=
  issue .scanner (.readTag p)
    (s.setScan { s.scan with progress := s.scan.progress.set d (.reading p) })

/-- A die's progress becomes READING at the lowest physical sector of the die (R156). -/
def startScan (d : DieId) (s : State) : State := scanReads d (firstPhys d) s

/-! ### Classification (R157) -/

/-- The known count that a tag gives (R33, R157): that of a valid COUNT, else 0. -/
def tagCount (tag : List Byte) : EraseCount :=
  match scanJudge tag .count with
  | .valid (.count n) => n
  | _ => 0

/-- The five fields of a tag. -/
def allFields : List TagField := [.count, .claim, .sealing, .release, .retire]

/-- What the scanner concludes of a tag: a classification, or a candidate with its logical sector. -/
structure TagClass where
  kind : ClassKind
  candidate : Option (Sector × Gen)
  garbled : Bool
  deriving DecidableEq, Repr

/-- The first line of the classification table that applies (R157). -/
def classifyTag (tag : List Byte) : TagClass :=
  match scanJudge tag .retire with
  | .valid (.retire reason) => { kind := .retired reason, candidate := none, garbled := false }
  | _ =>
    if allFields.any fun f => scanJudge tag f == .garbled then
      { kind := .eraseQueue, candidate := none, garbled := true }
    else
      match scanJudge tag .count, scanJudge tag .claim, scanJudge tag .sealing,
        scanJudge tag .release with
      | .valid _, .blank, .blank, .blank => { kind := .spare, candidate := none, garbled := false }
      | _, .valid (.claim l g), .valid _, .blank =>
        { kind := .candidate, candidate := some (l, g), garbled := false }
      | _, _, _, _ => { kind := .eraseQueue, candidate := none, garbled := false }

/-- The greater of the highest claim and the generation of a tag's valid CLAIM (R157). -/
def raiseHighest (highest : Option Gen) (tag : List Byte) : Option Gen :=
  match highest, (judgeTag tag .claim).claimGen with
  | some h, some g => some (if h < g then g else h)
  | none, some g => some g
  | h, none => h

/-- Whether a new candidate is kept over the one in the table (R158). -/
def beats (new old : Candidate) : Bool :=
  decide (old.gen < new.gen) || (new.gen == old.gen && decide (new.phys < old.phys))

/-- The classification of a physical sector recorded. -/
def Scanner.classify (sc : Scanner) (p : Phys) (k : ClassKind) (n : EraseCount) : Scanner :=
  { sc with classes := Table.put sc.classes p.val ⟨k, n⟩ }

/-- The known count of a physical sector already classified. -/
def Scanner.countOf (sc : Scanner) (p : Phys) : EraseCount :=
  ((Table.find sc.classes p.val).map (·.count)).getD 0

/-- A candidate compared with the candidate table (R158): the one not kept is classified ERASE
QUEUE. -/
def Scanner.compare (sc : Scanner) (l : Sector) (c : Candidate) : Scanner :=
  match Table.find sc.candidates l.val with
  | none => { sc with candidates := Table.put sc.candidates l.val c }
  | some old =>
    if beats c old then
      Scanner.classify { sc with candidates := Table.put sc.candidates l.val c } old.phys .eraseQueue
        (sc.countOf old.phys)
    else sc.classify c.phys .eraseQueue (sc.countOf c.phys)

/-- A tag judged and classified (R157, R158). -/
def Scanner.judge (sc : Scanner) (p : Phys) (tag : List Byte) : Scanner :=
  let c := classifyTag tag
  let classed := sc.classify p c.kind (tagCount tag)
  let compared :=
    match c.candidate with
    | some (l, g) => classed.compare l ⟨p, g⟩
    | none => classed
  { compared with highest := raiseHighest sc.highest tag, judged := sc.judged + 1 }

/-- The scanner acts on a tag that has arrived (R156, R157). -/
def scanTag (d : DieId) (p : Phys) (tag : List Byte) (s : State) : State :=
  let recorded := if (classifyTag tag).garbled then record (.garbledTag p) s else s
  let judged := recorded.setScan (recorded.scan.judge p tag)
  match nextPhys p with
  | some q => scanReads d q judged
  | none => judged.setScan { judged.scan with progress := judged.scan.progress.set d .done }

/-- TIMEOUT for a READ TAG (R156): it is issued again. -/
def scanTimeout (p : Phys) (s : State) : State := issue .scanner (.readTag p) s

/-! ### The end of the scan (R159) -/

/-- The map the scan gives (R159 item 1). -/
def scannedMap (candidates : Table Candidate) : Table MapEntry :=
  candidates.map fun c =>
    (c.1, { MapEntry.unbacked with binding := some { phys := c.2.phys, gen := c.2.gen } })

/-- The set a classification puts a physical sector into (R159 item 2). -/
def ClassKind.membership : ClassKind → Membership
  | .retired _ => .retired
  | .eraseQueue => .queuedForErase
  | .spare => .spare
  | .candidate => .mapped

/-- The records the scan gives (R159 item 2). -/
def scannedRecs (classes : Table Classified) : Table PhysRec :=
  classes.map fun c => (c.1, { membership := c.2.kind.membership, count := c.2.count })

/-- A key of the classification table as a physical sector. -/
def physOf (k : Nat) : Phys := ⟨k % 1056, by omega⟩

/-- The wear order over classified sectors (R34). -/
def classedBefore (classes : Table Classified) (p q : Phys) : Bool :=
  let c := ((Table.find classes p.val).map (·.count)).getD 0
  let e := ((Table.find classes q.val).map (·.count)).getD 0
  c < e || (c == e && p.val < q.val)

/-- The spare pool the scan gives, in wear order (R159 item 2, R34). -/
def scannedPool (classes : Table Classified) : List Phys :=
  ((classes.filter fun c => c.2.kind == .spare).map fun c => physOf c.1).foldl
    (fun pool p => insertByWear (classedBefore classes p) p pool) []

/-- The erase queue the scan gives, in ascending physical sector number (R159 item 2). -/
def scannedQueue (classes : Table Classified) : List EraseRecord :=
  (classes.filter fun c => c.2.kind == .eraseQueue).map fun c => ⟨physOf c.1, c.2.count⟩

/-- The retired list the scan gives, in ascending physical sector number (R159 item 2). -/
def scannedRetired (classes : Table Classified) : List RetiredRecord :=
  classes.filterMap fun c =>
    match c.2.kind with
    | .retired reason => some ⟨physOf c.1, reason⟩
    | .eraseQueue | .spare | .candidate => none

/-- The sector accounting the scan gives (R159 item 2). -/
def scannedAcct (classes : Table Classified) : Accounting :=
  { recs := scannedRecs classes, pool := scannedPool classes
    eraseQueue := scannedQueue classes, retired := scannedRetired classes }

/-- The generation counter the scan gives (R54, R159 item 3). -/
def scannedGeneration (highest : Option Gen) : Gen :=
  match highest with
  | some h => h + 1
  | none => 1

/-- A cycle held through STARTING is handled as arriving in the new state (R140). -/
def handleHeldCycle (s : State) : State :=
  match s.host.port with
  | .holding h => handleArrival h s
  | .idle | .completed _ _ | .inReset _ | .reading _ _ | .writing _ => s

/-- The happening at the end of the scan (R159), in its order. -/
def endScan (s : State) : State :=
  let written := ((s.setMap (scannedMap s.scan.candidates)).setAcct
    (scannedAcct s.scan.classes)).setReloc
      { s.reloc with generation := some (scannedGeneration s.scan.highest) }
  let op := if s.power.pfail then OpState.powerdown else OpState.running
  let entered := (written.setScan Scanner.atReset).setPower { s.power with op := op }
  handleHeldCycle (if s.power.pfail then sealAll entered else entered)

/-! ### Meanings -/

/-- READ_TAG_RESULT (R156 to R158, R119). -/
def execReadTagResult (d : DieId) (s : State) : Host.Outcome State Fault Refusal :=
  .next (match answering s d .scanner with
    | some (.readTag p) => settle (scanTag d p (s.medium.tag p) (endOperation d s))
    | _ => s)

/-- SCAN_END (R159): in STARTING, when the progress of both dies is DONE. -/
def execScanEnd (s : State) : Host.Outcome State Fault Refusal :=
  .next (if s.power.op = .starting ∧ s.scan.progress.die0 = .done ∧ s.scan.progress.die1 = .done then
    settle (endScan s) else s)

end Sys2Proof.Machine
end

