-- ==== Sys2Proof/Machine/Dies.lean ====
section
/-!
DEFINITION. The die schedulers' own happenings (chapter 7): PAUSE answers, the progress interval,
time-outs, DIE RESET answers, and the entry into FAILED (R165).
-/

namespace Sys2Proof.Machine

open Sys2Proof

/-! ### PAUSE -/

/-- HELD (R124): the die enters HELD; pauses taken and PAUSES increase. -/
def pauseHeld (d : DieId) (run : EraseRun) (abandon : Bool) (s : State) : State :=
  countUp .pauses 1 (setDieState d (.held { run with pauses := run.pauses + 1 } abandon) s)

/-- What the scheduler makes of a PAUSE answer (R113, R124): HELD while the erase goes on, NOT ERASING
after the erase's own result. -/
def pauseAnswered (d : DieId) (heldAnswer : Bool) (s : State) : State :=
  match (s.dies.get d).state, heldAnswer with
  | .pausing _ (some run) abandon _, true => pauseHeld d run abandon s
  | .pausing _ none _ _, false => setDieState d .idle s
  | _, _ => s

/-! ### Time-outs -/

/-- The time-out of a read or a program, in µs (R112). -/
def DieOp.limit (op : DieOp) : Nat := if op.isRead then readLimit else programLimit

/-- An operation reaches its time-out (R119, R120, R122), the time it still lacks passing first: DIE
RESET is issued. -/
def operationTimesOut (d : DieId) (s : State) : State :=
  match (s.dies.get d).state with
  | .reading r t | .programming r t =>
    dieReset d (.timeout r.requester r.op false) (elapse (r.op.limit - t) s)
  | .heldReading _ r _ t =>
    dieReset d (.timeout r.requester r.op true) (elapse (r.op.limit - t) s)
  | .erasing run =>
    dieReset d (.timeout .eraseSlot (.eraseSector run.phys) false)
      (elapse (eraseLimit - run.erasing) s)
  | .idle | .pausing _ _ _ _ | .held _ _ | .resetting _ _ _ => s

/-- A PAUSE reaches its time-out (R127): a PAUSE TIMEOUT record, and DIE RESET. -/
def pauseTimesOut (d : DieId) (s : State) : State :=
  match (s.dies.get d).state with
  | .pausing p _ _ t =>
    dieReset d .pauseTimeout (record (.pauseTimeout d p) (elapse (pauseLimit - t) s))
  | .idle | .reading _ _ | .programming _ _ | .erasing _ | .held _ _ | .heldReading _ _ _ _
  | .resetting _ _ _ => s

/-- The power monitor enters FAILED (R165): the port completes what it holds (R141). A second request
changes nothing. -/
def enterFailed (s : State) : State :=
  if s.power.op = .failed then s
  else portEntersFailed (s.setPower { s.power with op := .failed })

/-- A DIE RESET reaches its time-out (R121): a DIE OFFLINE record, the offline mark, and FAILED. In
FAILED a READY that came and was disregarded leaves nothing to time (R129). -/
def dieResetTimesOut (d : DieId) (s : State) : State :=
  match (s.dies.get d).state with
  | .resetting _ t answered =>
    if answered || (s.dies.get d).offline then s
    else
      let timed := record (.dieOffline d) (elapse (resetLimit - t) s)
      enterFailed (setDie d { timed.dies.get d with offline := true } timed)
  | .idle | .reading _ _ | .programming _ _ | .erasing _ | .pausing _ _ _ _ | .held _ _
  | .heldReading _ _ _ _ => s

/-! ### READY -/

/-- READY in FAILED is disregarded (R129). -/
def readyDisregarded (d : DieId) (s : State) : State :=
  match (s.dies.get d).state with
  | .resetting c t _ => setDieState d (.resetting c t true) s
  | .idle | .reading _ _ | .programming _ _ | .erasing _ | .pausing _ _ _ _ | .held _ _
  | .heldReading _ _ _ _ => s

/-- Whether a DIE RESET still waits for READY. -/
def readyAwaited (s : State) (d : DieId) : Bool :=
  match (s.dies.get d).state with
  | .resetting _ _ answered => !answered && !(s.dies.get d).offline
  | .idle | .reading _ _ | .programming _ _ | .erasing _ | .pausing _ _ _ _ | .held _ _
  | .heldReading _ _ _ _ => false

/-- The scanner begins on a die that is ready, once RST# is released (R156). -/
def scanIfReady (d : DieId) (s : State) : State :=
  if s.power.op = .starting ∧ s.power.rst = false ∧ s.scan.progress.get d = .waiting ∧
      (s.dies.get d).state = .idle then startScan d s
  else s

/-- TIMEOUT delivered to the requester of an operation (R120 item 1). -/
def deliverTimeout (d : DieId) (who : Requester) (op : DieOp) (s : State) : State :=
  match who with
  | .hostPort => portReadTimeout s
  | .lane => if op.isRead then laneReadTimeout d s else laneProgramFails d s
  | .relocation => relocationTimeout op s
  | .eraseSlot => slotTimeout d op s
  | .release => releaseTimeout op s
  | .scanner => scanTimeout op.phys s

/-- What READY brings after the DIE RESET of a cause, the die being IDLE, before the choice of R117
(R115, R120, R127, R128). -/
def readyBrings (d : DieId) (cause : ResetCause) (s : State) : State :=
  match cause with
  | .partReset => scanIfReady d s
  | .timeout who op heldErase =>
    let delivered := deliverTimeout d who op s
    if heldErase then abandonReported d delivered else delivered
  | .pauseTimeout => pauseTimeoutReported d s
  | .abandonment => abandonReported d s

/-- READY answers a DIE RESET of the cause that `p` accepts (R115, R120, R127, R128, R129). -/
def dieReady (d : DieId) (p : ResetCause → Bool) (s : State) : State :=
  match (s.dies.get d).state with
  | .resetting cause _ _ =>
    if p cause && readyAwaited s d then
      if s.power.op = .failed then readyDisregarded d s
      else settle (readyBrings d cause (setDieState d .idle s))
    else s
  | .idle | .reading _ _ | .programming _ _ | .erasing _ | .pausing _ _ _ _ | .held _ _
  | .heldReading _ _ _ _ => s

/-- The four causes, as the rows of the table part them. -/
def ResetCause.isPartReset : ResetCause → Bool
  | .partReset => true
  | .timeout .. | .pauseTimeout | .abandonment => false

/-- A time-out of an operation (R120). -/
def ResetCause.isTimeout : ResetCause → Bool
  | .timeout .. => true
  | .partReset | .pauseTimeout | .abandonment => false

/-- A pause time-out (R127). -/
def ResetCause.isPauseTimeout : ResetCause → Bool
  | .pauseTimeout => true
  | .partReset | .timeout .. | .abandonment => false

/-- An abandonment (R128). -/
def ResetCause.isAbandonment : ResetCause → Bool
  | .abandonment => true
  | .partReset | .timeout .. | .pauseTimeout => false

/-! ### Meanings -/

/-- PAUSE_ANSWER (R113, R124, R125, R128). -/
def execPauseAnswer (d : DieId) (held : Bool) (s : State) : Host.Outcome State Fault Refusal :=
  .next (if s.power.op = .failed then s else settle (pauseAnswered d held s))

/-- PROGRESS_INTERVAL_REACHED (R122, R123): the erase's progress reaches 400 µs, the time it still
lacks passing first; with a host read waiting and budget left, PAUSE is issued. -/
def execProgressIntervalReached (d : DieId) (s : State) : Host.Outcome State Fault Refusal :=
  .next (if s.power.op = .failed then s
    else
      match (s.dies.get d).state with
      | .erasing run => settle (elapse (progressInterval - run.progress) s)
      | _ => s)

/-- OPERATION_TIMEOUT (R120). -/
def execOperationTimeout (d : DieId) (s : State) : Host.Outcome State Fault Refusal :=
  .next (if s.power.op = .failed then s else operationTimesOut d s)

/-- PAUSE_TIMEOUT (R127). -/
def execPauseTimeout (d : DieId) (s : State) : Host.Outcome State Fault Refusal :=
  .next (if s.power.op = .failed then s else pauseTimesOut d s)

/-- DIE_RESET_TIMEOUT (R121, R129, R165). -/
def execDieResetTimeout (d : DieId) (s : State) : Host.Outcome State Fault Refusal :=
  .next (dieResetTimesOut d s)

/-- DIE_READY_AFTER_RESET (R115, R156). -/
def execDieReadyAfterReset (d : DieId) (s : State) : Host.Outcome State Fault Refusal :=
  .next (dieReady d ResetCause.isPartReset s)

/-- DIE_READY_AFTER_TIMEOUT (R120). -/
def execDieReadyAfterTimeout (d : DieId) (s : State) : Host.Outcome State Fault Refusal :=
  .next (dieReady d ResetCause.isTimeout s)

/-- DIE_READY_AFTER_PAUSE_TIMEOUT (R127, R107). -/
def execDieReadyAfterPauseTimeout (d : DieId) (s : State) : Host.Outcome State Fault Refusal :=
  .next (dieReady d ResetCause.isPauseTimeout s)

/-- DIE_READY_AFTER_ABANDON (R128, R108). -/
def execDieReadyAfterAbandon (d : DieId) (s : State) : Host.Outcome State Fault Refusal :=
  .next (dieReady d ResetCause.isAbandonment s)

end Sys2Proof.Machine
end

