-- ==== Sys2Proof/Machine/Power.lean ====
section
/-!
DEFINITION. The power monitor's happenings (chapter 10): the two resets, the levels of RST# and
PFAIL#, and the falling edge of FLUSH#.
-/

namespace Sys2Proof.Machine

open Sys2Proof

/-! ### Resets -/

/-- What a reset ends on the two dies (R113, R155, R166): the operation in progress on each is cut. -/
def cutBoth (s : State) : State := cutInProgress .die1 (cutInProgress .die0 s)

/-- The values every block takes at POR (R155). The medium, the levels of PFAIL# and RST# and the
model's own fields but the time are kept (log 11). -/
def porValues (s : State) : State :=
  { State.reset with
    pending := s.pending
    power := { State.reset.power with pfail := s.power.pfail, rst := s.power.rst }
    medium := s.medium
    draws := s.draws }

/-- A region entry after RST# (R153): a frozen one is kept, another is disabled with range and mode
kept. -/
def Region.afterRst (r : Region) : Region := if r.frozen then r else { r with enabled := false }

/-- The region table after RST# (R153). -/
def regionsAfterRst (t : Table Region) : Table Region :=
  t.filterMap fun c =>
    if c.2.afterRst = Region.atPor then none else some (c.1, c.2.afterRst)

/-- The cycle that stays on the bus through RST# (R131, R142): one the host has not ended. -/
def cycleOnBus (p : Port) : Option HostCycle :=
  match p with
  | .completed c _ | .inReset c => some c
  | .reading (.cycle h) _ | .writing h | .holding h => some h.cycle
  | .reading (.abandoned next) _ => next.map (·.cycle)
  | .idle => none

/-- The port while RST# is asserted (R131): it has taken no cycle. -/
def portInReset (p : Port) : Port :=
  match cycleOnBus p with
  | some c => .inReset c
  | none => .idle

/-- The values every block takes at RST# (R155), with RST# asserted. -/
def rstValues (s : State) : State :=
  { porValues s with
    power := { (porValues s).power with rst := true }
    wmb := { State.reset.wmb with commitDelay := s.wmb.commitDelay }
    host := { port := portInReset s.host.port, threshold := s.host.threshold }
    regions := regionsAfterRst s.regions
    link := { State.reset.link with
      faultAttention := s.link.faultAttention, degradedAttention := s.link.degradedAttention }
    now := s.now }

/-- RST# is released (R131, R142, R156): a cycle the host still presents arrives, and the scanner
begins on each die that is ready. -/
def releaseRst (s : State) : State :=
  let released := s.setPower { s.power with rst := false }
  let arrived :=
    match s.host.port with
    | .inReset c => handleArrival (newCycle c) (setPort .idle released)
    | .idle | .completed _ _ | .reading _ _ | .writing _ | .holding _ => released
  scanIfReady .die1 (scanIfReady .die0 arrived)

/-! ### PFAIL# -/

/-- The entry into POWERDOWN from RUNNING (R161): the WMB seals, the erase slots act. -/
def enterPowerdown (s : State) : State :=
  slotPowersDown .die1 (slotPowersDown .die0
    (sealAll (s.setPower { s.power with op := .powerdown })))

/-- The return to RUNNING (R162): the port presents its held write, then the relocation engine goes
on (DESIGN CHOICE of order, log 14). -/
def returnToRunning (s : State) : State :=
  relocationResumes (presentHeldWrite (s.setPower { s.power with op := .running }))

/-! ### Meanings -/

/-- POR (R155). -/
def execPor (s : State) : Host.Outcome State Fault Refusal := .next (porValues (cutBoth s))

/-- RST_ASSERTED (R155). -/
def execRstAsserted (s : State) : Host.Outcome State Fault Refusal :=
  .next (rstValues (cutBoth s))

/-- RST_RELEASED (R156). -/
def execRstReleased (s : State) : Host.Outcome State Fault Refusal :=
  .next (if s.power.rst then settle (releaseRst s) else s)

/-- PFAIL_ASSERTED (R161): a transition only in RUNNING. -/
def execPfailAsserted (s : State) : Host.Outcome State Fault Refusal :=
  let seen := s.setPower { s.power with pfail := true }
  .next (if s.power.op = .running then settle (enterPowerdown seen) else seen)

/-- PFAIL_RELEASED (R162): a transition only in POWERDOWN. -/
def execPfailReleased (s : State) : Host.Outcome State Fault Refusal :=
  let seen := s.setPower { s.power with pfail := false }
  .next (if s.power.op = .powerdown then settle (returnToRunning seen) else seen)

/-- FLUSH_FALLING_EDGE (R163, R11). -/
def execFlushFallingEdge (s : State) : Host.Outcome State Fault Refusal := .next (sealAll s)

end Sys2Proof.Machine
end

