-- ==== Sys2Proof/Machine/Dispatch.lean ====
section
/-!
DEFINITION. The dispatch: one arm for each command, each a direct call of its meaning.
-/

namespace Sys2Proof.Machine

open Sys2Proof

def exec (i : Instr) (s : State) : Host.Outcome State Fault Refusal :=
  match i with
  | .por => Sys2Proof.Machine.execPor s
  | .rstAsserted => Sys2Proof.Machine.execRstAsserted s
  | .rstReleased => Sys2Proof.Machine.execRstReleased s
  | .pfailAsserted => Sys2Proof.Machine.execPfailAsserted s
  | .pfailReleased => Sys2Proof.Machine.execPfailReleased s
  | .flushFallingEdge => Sys2Proof.Machine.execFlushFallingEdge s
  | .hostRead addr low high => Sys2Proof.Machine.execHostRead addr low high s
  | .hostWrite addr data low high => Sys2Proof.Machine.execHostWrite addr data low high s
  | .hostCycleAbandoned => Sys2Proof.Machine.execHostCycleAbandoned s
  | .hostCycleEnd => Sys2Proof.Machine.execHostCycleEnd s
  | .commitDelayExpiry line => Sys2Proof.Machine.execCommitDelayExpiry line s
  | .longStall => Sys2Proof.Machine.execLongStall s
  | .heldWritePresented => Sys2Proof.Machine.execHeldWritePresented s
  | .flushDrain => Sys2Proof.Machine.execFlushDrain s
  | .laneTake d => Sys2Proof.Machine.execLaneTake d s
  | .laneReadLineResult d => Sys2Proof.Machine.execLaneReadLineResult d s
  | .laneProgramLineResult d ok => Sys2Proof.Machine.execLaneProgramLineResult d ok s
  | .relocationTake => Sys2Proof.Machine.execRelocationTake s
  | .spareReport => Sys2Proof.Machine.execSpareReport s
  | .claimResult ok => Sys2Proof.Machine.execClaimResult ok s
  | .copyReadLineResult => Sys2Proof.Machine.execCopyReadLineResult s
  | .copyProgramLineResult ok => Sys2Proof.Machine.execCopyProgramLineResult ok s
  | .sealResult ok => Sys2Proof.Machine.execSealResult ok s
  | .sourceRetireResult ok => Sys2Proof.Machine.execSourceRetireResult ok s
  | .targetRetireResult ok => Sys2Proof.Machine.execTargetRetireResult ok s
  | .eraseStart d => Sys2Proof.Machine.execEraseStart d s
  | .eraseSectorResult d ok => Sys2Proof.Machine.execEraseSectorResult d ok s
  | .countResult d ok => Sys2Proof.Machine.execCountResult d ok s
  | .eraseRetireResult d ok => Sys2Proof.Machine.execEraseRetireResult d ok s
  | .releaseProgramResult ok => Sys2Proof.Machine.execReleaseProgramResult ok s
  | .releaseRetireResult ok => Sys2Proof.Machine.execReleaseRetireResult ok s
  | .hostReadLineResult => Sys2Proof.Machine.execHostReadLineResult s
  | .readTagResult d => Sys2Proof.Machine.execReadTagResult d s
  | .pauseAnswer d held => Sys2Proof.Machine.execPauseAnswer d held s
  | .progressIntervalReached d => Sys2Proof.Machine.execProgressIntervalReached d s
  | .operationTimeout d => Sys2Proof.Machine.execOperationTimeout d s
  | .pauseTimeout d => Sys2Proof.Machine.execPauseTimeout d s
  | .dieResetTimeout d => Sys2Proof.Machine.execDieResetTimeout d s
  | .dieReadyAfterReset d => Sys2Proof.Machine.execDieReadyAfterReset d s
  | .dieReadyAfterTimeout d => Sys2Proof.Machine.execDieReadyAfterTimeout d s
  | .dieReadyAfterPauseTimeout d => Sys2Proof.Machine.execDieReadyAfterPauseTimeout d s
  | .dieReadyAfterAbandon d => Sys2Proof.Machine.execDieReadyAfterAbandon d s
  | .scanEnd => Sys2Proof.Machine.execScanEnd s
  | .status => Sys2Proof.Machine.execStatus s
  | .flush => Sys2Proof.Machine.execFlush s
  | .readRegion index => Sys2Proof.Machine.execReadRegion index s
  | .writeRegion index first last mode enabled => Sys2Proof.Machine.execWriteRegion index first last mode enabled s
  | .freezeRegion index => Sys2Proof.Machine.execFreezeRegion index s
  | .readCounters => Sys2Proof.Machine.execReadCounters s
  | .clearCounters => Sys2Proof.Machine.execClearCounters s
  | .readFault => Sys2Proof.Machine.execReadFault s
  | .mapQuery sector => Sys2Proof.Machine.execMapQuery sector s
  | .sectorQuery phys => Sys2Proof.Machine.execSectorQuery phys s
  | .releaseSector sector => Sys2Proof.Machine.execReleaseSector sector s
  | .setTiming delay threshold => Sys2Proof.Machine.execSetTiming delay threshold s
  | .eventEnable enables => Sys2Proof.Machine.execEventEnable enables s
  | .badCommandFrame bytes => Sys2Proof.Machine.execBadCommandFrame bytes s

end Sys2Proof.Machine
end

