-- ==== Sys2Proof/Machine/Idle.lean ====
section
/-!
DEFINITION. What the part does of itself while no command waits (log 5): the internal happening that
is due, if one is; else 1 µs passes. Answers of the dies are never due: they come as commands.
-/

namespace Sys2Proof.Machine

open Sys2Proof

/-- HELD_WRITE_PRESENTED is due (R138): the port, in RUNNING, holds a write that the DEGRADED check
refuses or the WMB would take. -/
def heldWriteDue (s : State) : Bool :=
  match s.host.port with
  | .writing h =>
    match h.cycle.kind with
    | .write data =>
      s.power.op == .running && (s.power.degraded.isSome ||
        (presentWrite (lineOf h.cycle.addr) (writeBytes h.cycle data) s).isSome)
    | .read => false
  | .idle | .completed _ _ | .inReset _ | .reading _ _ | .holding _ => false

/-- The line of an OPEN entry whose age has reached the commit delay (R8). -/
def expiredLine (s : State) : Option LineNo :=
  s.wmb.entries.findSome? fun e =>
    match e.stage with
    | .opened age => if s.wmb.commitDelay.toNat ≤ age then some e.line else none
    | .sealed _ | .committing _ _ => none

/-- The happening of die `d` whose time has come (R119, R121, R123, R127, R129). -/
def timerDue (s : State) (d : DieId) : Option Instr :=
  let die := s.dies.get d
  match die.state with
  | .resetting _ t answered =>
    if !answered && !die.offline && decide (resetLimit ≤ t) then some (.dieResetTimeout d) else none
  | .reading r t | .programming r t | .heldReading _ r _ t =>
    if s.power.op != .failed && decide (r.op.limit ≤ t) then some (.operationTimeout d) else none
  | .erasing run =>
    if s.power.op == .failed || die.offline then none
    else if eraseLimit ≤ run.erasing then some (.operationTimeout d)
    else if die.waiting.any Request.isHostRead && decide (progressInterval ≤ run.progress) &&
        decide (run.pauses < pauseBudget) then some (.progressIntervalReached d)
    else none
  | .pausing _ _ _ t =>
    if s.power.op != .failed && decide (pauseLimit ≤ t) then some (.pauseTimeout d) else none
  | .idle | .held _ _ => none

/-- SPARE_REPORT is due (R82): a relocation AWAITING SPARE would not go on waiting. -/
def spareReportDue (s : State) : Bool :=
  match s.reloc.engine, s.reloc.generation with
  | .awaitingSpare j, some g =>
    reportHeard s && (g == lastGeneration || (spareFor j.reason s).isSome || noSpareCanCome s)
  | _, _ => false

/-- LANE_TAKE is due on a die (R62). -/
def laneTakeDue (s : State) (d : DieId) : Bool :=
  s.lanes.get d == .idle && (s.power.op == .running || s.power.op == .powerdown) &&
    (laneChoice s d).isSome

/-- ERASE_START is due on a die (R101). Of itself the model makes no start behind another request that
came first (log 29). -/
def eraseStartDue (s : State) (d : DieId) : Bool :=
  eraseMayStart s d && (s.dies.get d).state == .idle && (s.dies.get d).waiting.isEmpty &&
    (oldestQueued s d).isSome

/-- The internal happening that is due. Where several are, the order is the model's (DESIGN CHOICE,
log 5). -/
def due (s : State) : Option Instr :=
  if drained s.wmb then some .flushDrain
  else if heldWriteDue s then some .heldWritePresented
  else
    match expiredLine s with
    | some line => some (.commitDelayExpiry line)
    | none =>
      match (timerDue s .die0).or (timerDue s .die1) with
      | some c => some c
      | none =>
        if s.power.op = .starting ∧ s.scan.progress.die0 = .done ∧
            s.scan.progress.die1 = .done then some .scanEnd
        else if spareReportDue s then some .spareReport
        else if s.reloc.engine = .idle ∧ s.power.op = .running ∧ s.reloc.queue ≠ [] then
          some .relocationTake
        else if laneTakeDue s .die0 then some (.laneTake .die0)
        else if laneTakeDue s .die1 then some (.laneTake .die1)
        else if eraseStartDue s .die0 then some (.eraseStart .die0)
        else if eraseStartDue s .die1 then some (.eraseStart .die1)
        else none

end Sys2Proof.Machine
end

