-- ==== Sys2Proof/Safety.lean ====
section
/-!
DEFINITION. What holds of the part at every moment: the invariants that statements are made in terms
of. Each is a condition on one state; that every step keeps it is for a proof.
-/

namespace Sys2Proof.Machine

open Sys2Proof

/-- The stored tables stand in their one canonical form, so that equal contents are equal data: the
medium, the map, the region table, sector accounting's records and the scanner's tables. -/
structure TablesCanonical (s : State) : Prop where
  medium : Memory.wf s.medium
  map : Table.Canonical MapEntry.unbacked s.map
  regions : Table.Canonical Region.atPor s.regions
  recs : Table.Sorted s.acct.recs
  classes : Table.Sorted s.scan.classes
  candidates : Table.Sorted s.scan.candidates

/-- Every region's first page is no greater than its last page (R145). -/
def RegionsOrdered (s : State) : Prop := ∀ c ∈ s.regions, c.2.first ≤ c.2.last

/-- The write-merge buffer's orders (R1, R2, R9, R10, R12): at most 32 entries, of which at most 23
OPEN, open orders rising and below the opening counter, seal orders below the sealing counter, at
most one OPEN entry for a line, 32 byte places in each entry, no OPEN entry with all of them, and a
flush boundary at most the opening counter. -/
structure WmbOrderly (w : Wmb) : Prop where
  size : w.entries.length ≤ wmbSize
  openCount : w.entries.countP Entry.isOpen < highWater
  rising : (w.entries.map (·.openOrder)).Pairwise (· < ·)
  openBelow : ∀ e ∈ w.entries, e.openOrder < w.openCounter
  sealBelow : ∀ e ∈ w.entries, e.isOpen = false → e.sealOrder < w.sealCounter
  oneOpen : (w.entries.filter Entry.isOpen).Pairwise fun a b => a.line ≠ b.line
  places : ∀ e ∈ w.entries, e.held.length = 32
  notFull : ∀ e ∈ w.entries, e.isOpen = true → fullMask e.held = false
  boundary : ∀ b, w.boundary = some b → b ≤ w.openCounter

/-- The erase record of a die keeps within the pause budget (R114, R122): at most 48 pauses, and
fewer while a PAUSE is awaited. -/
def DieState.withinBudget : DieState → Prop
  | .erasing run | .held run _ | .heldReading run _ _ _ => run.pauses ≤ pauseBudget
  | .pausing _ (some run) _ _ => run.pauses < pauseBudget
  | .pausing _ none _ _ | .idle | .reading _ _ | .programming _ _ | .resetting _ _ _ => True

/-- Both dies keep within the pause budget. -/
def PausesBounded (s : State) : Prop :=
  s.dies.die0.state.withinBudget ∧ s.dies.die1.state.withinBudget

/-- While the state is STARTING the blocks hold nothing (R22, R41, R54, R60, R79, R99, R154): no WMB
entry, an empty map and sets, engines and lanes IDLE, no generation, DEGRADED clear. -/
structure StartingQuiet (s : State) : Prop where
  entries : s.power.op = .starting → s.wmb.entries = [] ∧ s.wmb.boundary = none
  sets : s.power.op = .starting →
    s.map = [] ∧ s.acct = { recs := [], pool := [], eraseQueue := [], retired := [] }
  engines : s.power.op = .starting →
    s.lanes = ⟨.idle, .idle⟩ ∧ s.reloc = { queue := [], engine := .idle, generation := none } ∧
      s.erase = { slots := ⟨.idle, .idle⟩, pauseList := [] } ∧ s.release = none
  degraded : s.power.op = .starting → s.power.degraded = none

/-- What the management link keeps (R174, R143): at most 16 records, and a stall threshold of 1 or
more. -/
def LinkBounded (s : State) : Prop :=
  s.link.faults.length ≤ faultQueueSize ∧ s.host.threshold ≠ 0

/-- The relocation in flight that has not made its switch (R79, R88). -/
def Engine.beforeSwitch : Engine → Option Job
  | .awaitingSpare j | .claiming j _ _ _ | .copying j _ _ _ | .sealing j _ _
  | .retiringTarget j _ _ _ => some j
  | .idle | .retiringSource _ _ => none

/-- The six sets are told alike by the records, the lists, the map and the engines (R25, R32, R34, R37,
R38): the pool, which stands in wear order and so lists no sector twice, the erase queue and the
retired list hold the sectors of their sets once each, the map binds each MAPPED sector to one logical
sector, and TARGET and ERASING hold the engine's target and the slots' sectors, each on its die. -/
structure SetsAgree (s : State) : Prop where
  pool : ∀ p, p ∈ s.acct.pool ↔ membershipOf s p = some .spare
  wear : s.acct.pool.Pairwise fun a b =>
    knownCount s a < knownCount s b ∨ (knownCount s a = knownCount s b ∧ a < b)
  queue : ∀ p, (∃ n, ⟨p, n⟩ ∈ s.acct.eraseQueue) ↔ membershipOf s p = some .queuedForErase
  queueOnce : (s.acct.eraseQueue.map (·.phys)).Nodup
  queueCount : ∀ r ∈ s.acct.eraseQueue, r.count = knownCount s r.phys
  retired : ∀ p, (∃ why, ⟨p, why⟩ ∈ s.acct.retired) ↔ membershipOf s p = some .retired
  retiredOnce : (s.acct.retired.map (·.phys)).Nodup
  mapped : ∀ p, (∃ l, boundPhys s l = some p) ↔ membershipOf s p = some .mapped
  boundOnce : ∀ l l' p, boundPhys s l = some p → boundPhys s l' = some p → l = l'
  target : ∀ p, s.reloc.engine.target = some p ↔ membershipOf s p = some .target
  erasing : ∀ p, (∃ d i, (s.erase.slots.get d).items = some i ∧ i.phys = p) ↔
    membershipOf s p = some .erasing
  slotDie : ∀ d i, (s.erase.slots.get d).items = some i → dieOf i.phys = d

/-- What the blocks at work hold of a sector agrees with the map and the WMB (R16, R27, R29, R74, R77,
R79, R171): a relocation before its switch, a record of the relocation queue, a release, a COMMITTING
entry and a lane's entry. -/
structure WorkAgrees (s : State) : Prop where
  job : ∀ j, s.reloc.engine.beforeSwitch = some j → boundPhys s j.sector = j.source ∧
    (mapEntry s j.sector).releasing = false ∧
    ∃ pending, (mapEntry s j.sector).reloc = .inFlight s.reloc.engine.target pending
  queued : ∀ r ∈ s.reloc.queue, (mapEntry s r.sector).reloc = .queued r.reason ∧
    (mapEntry s r.sector).releasing = false
  queuedOnce : (s.reloc.queue.map (·.sector)).Nodup
  release : ∀ r, s.release = some r → boundPhys s r.sector = some r.phys ∧
    (mapEntry s r.sector).releasing = true
  committing : ∀ e ∈ s.wmb.entries, e.isCommitting = true → (mapEntry s e.sector).releasing = false
  lane : ∀ d id, (∃ p, s.lanes.get d = .reading id p) ∨
      (∃ p medium target, s.lanes.get d = .programming id p medium target) →
    id < s.wmb.openCounter ∧
    ∀ e ∈ s.wmb.entries, e.openOrder = id → ∃ o, e.stage = .committing o (.lane d)

/-- The scanner's operations at a die: waiting, in progress, or cut by the DIE RESET of a time-out. -/
def scannerOps (die : Die) : List DieOp :=
  ((die.waiting ++ die.inProgress.toList).filter fun r => r.requester == .scanner).map (·.op) ++
    match die.state with
    | .resetting (.timeout .scanner op _) _ _ => [op]
    | _ => []

/-- The scanner's tables agree with one another and with the one READ TAG it has outstanding at a die
(R156, R158): the candidates are the physical sectors classified CANDIDATE, one for each logical
sector, and the sectors from the next one on are not yet judged. -/
structure ScanAgrees (s : State) : Prop where
  keys : ∀ c ∈ s.scan.classes, c.1 < 1056
  candidates : ∀ p : Phys,
    (∃ (l : Sector) (c : Candidate), Table.find s.scan.candidates l.val = some c ∧ c.phys = p) ↔
      ∃ n, Table.find s.scan.classes p.val = some ⟨.candidate, n⟩
  candidateOnce : ∀ (l l' : Sector) (c c' : Candidate), Table.find s.scan.candidates l.val = some c →
    Table.find s.scan.candidates l'.val = some c' → c.phys = c'.phys → l = l'
  asks : ∀ d, scannerOps (s.dies.get d) = [] ∨
    ∃ p, s.scan.progress.get d = .reading p ∧ dieOf p = d ∧ scannerOps (s.dies.get d) = [.readTag p]
  ahead : ∀ d (p : Phys), dieOf p = d →
    s.scan.progress.get d = .waiting ∨ (∃ q, s.scan.progress.get d = .reading q ∧ q ≤ p) →
    Table.find s.scan.classes p.val = none

/-- Sector accounting is sound: the sets, the work on them and the scan that builds them agree. -/
def SectorsAccounted (s : State) : Prop := SetsAgree s ∧ WorkAgrees s ∧ ScanAgrees s

/-- A command that begins a reset (R155). -/
def isReset : Instr → Bool
  | .por | .rstAsserted => true
  | .rstReleased | .pfailAsserted | .pfailReleased | .flushFallingEdge
  | .hostRead .. | .hostWrite .. | .hostCycleAbandoned | .hostCycleEnd | .commitDelayExpiry _
  | .longStall | .heldWritePresented | .flushDrain | .laneTake _ | .laneReadLineResult _
  | .laneProgramLineResult .. | .relocationTake | .spareReport | .claimResult _
  | .copyReadLineResult | .copyProgramLineResult _ | .sealResult _ | .sourceRetireResult _
  | .targetRetireResult _ | .eraseStart _ | .eraseSectorResult .. | .countResult ..
  | .eraseRetireResult .. | .releaseProgramResult _ | .releaseRetireResult _
  | .hostReadLineResult | .readTagResult _ | .pauseAnswer .. | .progressIntervalReached _
  | .operationTimeout _ | .pauseTimeout _ | .dieResetTimeout _ | .dieReadyAfterReset _
  | .dieReadyAfterTimeout _ | .dieReadyAfterPauseTimeout _ | .dieReadyAfterAbandon _ | .scanEnd
  | .status | .flush | .readRegion _ | .writeRegion .. | .freezeRegion _ | .readCounters
  | .clearCounters | .readFault | .mapQuery _ | .sectorQuery _ | .releaseSector _ | .setTiming ..
  | .eventEnable _ | .badCommandFrame _ => false

/-- A command in whose happening the binding of a map entry can change (R25): the switch, the end of
a release, the end of the scan, and the resets. -/
def mayRebind : Instr → Bool
  | .por | .rstAsserted | .sealResult _ | .releaseProgramResult _ | .releaseRetireResult _
  | .dieReadyAfterTimeout _ | .scanEnd => true
  | .rstReleased | .pfailAsserted | .pfailReleased | .flushFallingEdge
  | .hostRead .. | .hostWrite .. | .hostCycleAbandoned | .hostCycleEnd | .commitDelayExpiry _
  | .longStall | .heldWritePresented | .flushDrain | .laneTake _ | .laneReadLineResult _
  | .laneProgramLineResult .. | .relocationTake | .spareReport | .claimResult _
  | .copyReadLineResult | .copyProgramLineResult _ | .sourceRetireResult _
  | .targetRetireResult _ | .eraseStart _ | .eraseSectorResult .. | .countResult ..
  | .eraseRetireResult .. | .hostReadLineResult | .readTagResult _ | .pauseAnswer ..
  | .progressIntervalReached _ | .operationTimeout _ | .pauseTimeout _ | .dieResetTimeout _
  | .dieReadyAfterReset _ | .dieReadyAfterPauseTimeout _ | .dieReadyAfterAbandon _
  | .status | .flush | .readRegion _ | .writeRegion .. | .freezeRegion _ | .readCounters
  | .clearCounters | .readFault | .mapQuery _ | .sectorQuery _ | .releaseSector _ | .setTiming ..
  | .eventEnable _ | .badCommandFrame _ => false

/-- A request of a requester is outstanding at the scheduler of its die: it waits, or the die has
taken it (R116, R117). -/
def asked (s : State) (who : Requester) (op : DieOp) : Prop :=
  ∃ r : Request, r.requester = who ∧ r.op = op ∧
    (r ∈ (s.dies.get (dieOf op.phys)).waiting ∨ (s.dies.get (dieOf op.phys)).inProgress = some r)

/-- A physical sector that a die's operation in progress or an erase names (R113): the only sectors
whose bytes a happening may change. -/
def workedOn (s : State) (p : Phys) : Prop :=
  ∃ d, (∃ r, (s.dies.get d).inProgress = some r ∧ r.op.phys = p) ∨
    (∃ run, (s.dies.get d).state.eraseRun = some run ∧ run.phys = p) ∨
    ∃ i, s.erase.slots.get d = .erasing i ∧ i.phys = p

/-- An address outside every sector that is worked on. -/
def untouched (s : State) (a : Nat) : Prop := ∀ p, workedOn s p → inSector p a = false

/-- The entries of the WMB with every OPEN one sealed in ascending open order, the seal orders
counted from `n` (R2, R7, R11). -/
def sealedFrom : Nat → List Entry → List Entry
  | _, [] => []
  | n, e :: rest =>
    if e.isOpen then { e with stage := .sealed n } :: sealedFrom (n + 1) rest
    else e :: sealedFrom n rest

/-- The entries with every OPEN one whose age has reached a delay sealed in ascending open order, the
seal orders counted from `n` (R2, R7, R8). -/
def sealedOverdue (delay : Nat) : Nat → List Entry → List Entry
  | _, [] => []
  | n, e :: rest =>
    match e.stage with
    | .opened age =>
      if delay ≤ age then { e with stage := .sealed n } :: sealedOverdue delay (n + 1) rest
      else e :: sealedOverdue delay n rest
    | .sealed _ | .committing _ _ => e :: sealedOverdue delay n rest

/-- What the sealing of the entries that meet `p` asks of the map and the relocation queue, in an
operating state other than FAILED (R7, R78): BACKING for each UNBACKED sector of theirs that is not
releasing, queued where its field is none. -/
def asksBacking (p : Entry → Prop) (s t : State) : Prop :=
  let asks (l : Sector) : Prop := (mapEntry s l).binding = none ∧ (mapEntry s l).releasing = false ∧
    ∃ e ∈ s.wmb.entries, p e ∧ e.sector = l
  (∀ l, let e := mapEntry s l
    (¬ asks l → mapEntry t l = e) ∧
    (asks l →
      (e.reloc = .absent → mapEntry t l = { e with reloc := .queued .backing }) ∧
      (∀ r, e.reloc = .queued r → mapEntry t l = e) ∧
      (∀ x b, e.reloc = .inFlight x b → mapEntry t l = { e with reloc := .inFlight x true }))) ∧
  ∃ new : List Sector, new.Nodup ∧
    (∀ l, l ∈ new ↔ asks l ∧ (mapEntry s l).reloc = .absent) ∧
    t.reloc = { s.reloc with queue := s.reloc.queue ++ new.map fun l => ⟨l, .backing⟩ }

/-- `r` is the first happening of a list whose time has come, each standing with when that is; none
where no time has come. -/
def firstDue : List (Prop × Instr) → Option Instr → Prop
  | [], r => r = none
  | (now, c) :: rest, r => (now → r = some c) ∧ (¬ now → firstDue rest r)

/-- The port is not waiting for a READ LINE, so an arriving cycle is handled at once (R131). -/
def portTakes (s : State) : Prop := ∀ who ask, s.host.port ≠ .reading who ask

/-- `r` is the first of a list to meet `p`, and `rest` is the list without it. -/
def firstOf (p : Request → Bool) (ws : List Request) (r : Request) (rest : List Request) : Prop :=
  ∃ before after, ws = before ++ r :: after ∧ rest = before ++ after ∧ p r = true ∧
    ∀ x ∈ before, p x = false

/-- One of the ten counters (R176). -/
def Counters.value (c : Counters) : CounterName → BitVec 32
  | .hostReads => c.hostReads
  | .hostWrites => c.hostWrites
  | .longStalls => c.longStalls
  | .refusedWrites => c.refusedWrites
  | .linesCommitted => c.linesCommitted
  | .relocationsDone => c.relocationsDone
  | .linesLost => c.linesLost
  | .erasesDone => c.erasesDone
  | .pauses => c.pauses
  | .sectorsRetired => c.sectorsRetired

/-- The host port's counters and the link's other counters, each at least what it was (R176). -/
def Counters.noneBelow (a b : Counters) : Prop :=
  a.hostReads ≤ b.hostReads ∧ a.hostWrites ≤ b.hostWrites ∧ a.longStalls ≤ b.longStalls ∧
    a.refusedWrites ≤ b.refusedWrites ∧ a.linesCommitted ≤ b.linesCommitted ∧
    a.relocationsDone ≤ b.relocationsDone ∧ a.linesLost ≤ b.linesLost ∧
    a.erasesDone ≤ b.erasesDone ∧ a.pauses ≤ b.pauses ∧ a.sectorsRetired ≤ b.sectorsRetired

/-- A frame that spells CLEAR COUNTERS, or the command itself (R176). -/
def clearsCounters (c : Instr) : Prop :=
  c = .clearCounters ∨ ∃ bytes, c = .badCommandFrame bytes ∧ judgeFrame bytes = .command .clearCounters

end Sys2Proof.Machine
end

