-- ==== Sys2Proof/Certificates/Slice0/Obligations.lean ====
section
/-!
DEFINITION. The statements about the model, for the provers.
-/

open Sys2Proof Sys2Proof.Machine

/-! ### The machine -/

/-- A step with a command at the front of the queue is that command's execution with the queue's rest.
On an empty queue it is the first due happening of the model's order, or 1 µs passes where none is due
(log 5). -/
def Obligations.StepRunsFront : Prop :=
  (∀ (c : Instr) (rest : List Instr) (s : State), s.pending = c :: rest →
    step s = exec c { s with pending := rest }) ∧
  ∀ s : State, s.pending = [] →
    (∀ c, due s = some c → step s = exec c s) ∧
    (due s = none → step s = .next (elapse 1 s)) ∧
    let die (d : DieId) : Die := s.dies.get d
    let timers (d : DieId) : List (Prop × Instr) :=
      [(∃ cause time, (die d).state = .resetting cause time false ∧ (die d).offline = false ∧
          1000 ≤ time, .dieResetTimeout d),
        (s.power.op ≠ .failed ∧
          ((∃ r time, ((die d).state = .reading r time ∨ (die d).state = .programming r time ∨
              ∃ run abandon, (die d).state = .heldReading run r abandon time) ∧
            (if r.op.isRead then 20 else 1000) ≤ time) ∨
          ∃ run, (die d).state = .erasing run ∧ (die d).offline = false ∧ 5000000 ≤ run.erasing),
          .operationTimeout d),
        (s.power.op ≠ .failed ∧ (die d).offline = false ∧ (die d).waiting.any Request.isHostRead ∧
          ∃ run, (die d).state = .erasing run ∧ 400 ≤ run.progress ∧ run.pauses < 48,
          .progressIntervalReached d),
        (s.power.op ≠ .failed ∧
          ∃ p run abandon time, (die d).state = .pausing p run abandon time ∧ 100 ≤ time,
          .pauseTimeout d)]
    let take (d : DieId) : Prop × Instr :=
      (s.lanes.get d = .idle ∧ (s.power.op = .running ∨ s.power.op = .powerdown) ∧
        ∃ e ∈ s.wmb.entries, isCandidate s d e = true, .laneTake d)
    let start (d : DieId) : Prop × Instr :=
      (s.power.op = .running ∧ s.erase.slots.get d = .idle ∧ (die d).state = .idle ∧
        (die d).waiting = [] ∧ (die d).reported = true ∧
        (pendingWork s d = false ∨ s.acct.pool.length < 4) ∧
        ∃ r ∈ s.acct.eraseQueue, dieOf r.phys = d, .eraseStart d)
    firstDue
      ([(∃ b, s.wmb.boundary = some b ∧ ∀ e ∈ s.wmb.entries, b ≤ e.openOrder, .flushDrain),
        (∃ h data, s.host.port = .writing h ∧ h.cycle.kind = .write data ∧ s.power.op = .running ∧
          (s.power.degraded ≠ none ∨
            presentWrite (lineOf h.cycle.addr) (writeBytes h.cycle data) s ≠ none),
          .heldWritePresented)] ++
        s.wmb.entries.map (fun e =>
          (∃ age, e.stage = .opened age ∧ s.wmb.commitDelay.toNat ≤ age, .commitDelayExpiry e.line)) ++
        timers .die0 ++ timers .die1 ++
        [(s.power.op = .starting ∧ s.scan.progress.die0 = .done ∧ s.scan.progress.die1 = .done,
            .scanEnd),
          (∃ j g, s.reloc.engine = .awaitingSpare j ∧ s.reloc.generation = some g ∧
            (s.power.op = .running ∨ (s.power.op = .powerdown ∧ foldedList s ≠ [])) ∧
            (g = 0xFFFFFFFF#32 ∨
              (∃ p rest, s.acct.pool = p :: rest ∧ (j.reason = .failure ∨ rest ≠ [])) ∨
              (s.acct.eraseQueue = [] ∧ ∀ c ∈ s.acct.recs, c.2.membership ≠ .erasing)),
            .spareReport),
          (s.reloc.engine = .idle ∧ s.power.op = .running ∧ s.reloc.queue ≠ [], .relocationTake),
          take .die0, take .die1, start .die0, start .die1])
      (due s)

/-- No command reads or changes the queue of waiting commands: with any queue in its place the outcome
is the same with that queue. -/
def Obligations.ExecLeavesQueue : Prop :=
  ∀ (c : Instr) (s t : State), exec c s = .next t →
    t.pending = s.pending ∧
    ∀ q : List Instr, exec c { s with pending := q } = .next { t with pending := q }

/-- The state after POR has every invariant. -/
def Obligations.ResetHasInvariants : Prop :=
  TablesCanonical State.reset ∧ RegionsOrdered State.reset ∧ WmbOrderly State.reset.wmb ∧
    PausesBounded State.reset ∧ StartingQuiet State.reset ∧ LinkBounded State.reset ∧
    SectorsAccounted State.reset

/-- Every step keeps the medium and the other stored tables in their canonical form. -/
def Obligations.StepKeepsTablesCanonical : Prop :=
  ∀ s t : State, TablesCanonical s → step s = .next t → TablesCanonical t

/-- Every step keeps the write-merge buffer's orders (R1, R2, R9, R10, R12). -/
def Obligations.StepKeepsWmbOrderly : Prop :=
  ∀ s t : State, WmbOrderly s.wmb → step s = .next t → WmbOrderly t.wmb

/-- Every step keeps both dies within the pause budget of 48 (R114, R122), each region's first page no
greater than its last (R145), the fault queue at 16 records or fewer (R174) and the stall threshold at
1 or more (R143). -/
def Obligations.StepKeepsBounds : Prop :=
  (∀ s t : State, PausesBounded s → step s = .next t → PausesBounded t) ∧
  (∀ s t : State, RegionsOrdered s → LinkBounded s → step s = .next t →
    RegionsOrdered t ∧ LinkBounded t)

/-- Every step keeps the blocks empty in STARTING. -/
def Obligations.StepKeepsStartingQuiet : Prop :=
  ∀ s t : State, StartingQuiet s → step s = .next t → StartingQuiet t

/-- In FAILED no command but a reset leaves FAILED, changes the map, a set, an engine, a region or the
medium, or adds, takes or ends a request at a scheduler: a die keeps its state, and one in RESETTING is
only timed on, its READY and its offline mark noted (log 19); a report of IDLE may pass (log 29) (R41,
R75, R97, R109, R129, R165). -/
def Obligations.FailedDoesNoWork : Prop :=
  ∀ (c : Instr) (s t : State), isReset c = false → s.power.op = .failed → exec c s = .next t →
    t.power.op = .failed ∧ t.power.degraded = s.power.degraded ∧ t.medium = s.medium ∧
      t.draws = s.draws ∧ t.map = s.map ∧ t.acct = s.acct ∧ t.lanes = s.lanes ∧ t.reloc = s.reloc ∧
      t.erase = s.erase ∧ t.release = s.release ∧ t.scan = s.scan ∧ t.regions = s.regions ∧
      ∀ d,
        let a := s.dies.get d
        let b := t.dies.get d
        ((∀ cause time answered, a.state ≠ .resetting cause time answered) →
          b = { a with reported := b.reported }) ∧
        (∀ cause time answered, a.state = .resetting cause time answered →
          b.waiting = a.waiting ∧ (a.offline = true → b.offline = true) ∧
          ∃ time' answered', b.state = .resetting cause time' answered' ∧ time ≤ time' ∧
            (answered = true → answered' = true))

/-- Only a reset begins STARTING, and only a reset clears DEGRADED set with reason GENERATION (R40,
R154). -/
def Obligations.ResetAloneRestarts : Prop :=
  ∀ (c : Instr) (s t : State), isReset c = false → exec c s = .next t →
    (t.power.op = .starting → s.power.op = .starting) ∧
      (s.power.degraded = some .generation → t.power.degraded = some .generation)

/-- A frozen region keeps all its fields at every command but POR (R150, R153). -/
def Obligations.FrozenRegionStays : Prop :=
  ∀ (c : Instr) (s t : State) (i : Fin 16), c ≠ .por → (regionAt s i).frozen = true →
    exec c s = .next t → regionAt t i = regionAt s i

/-- The binding and the claim generation of a sector change only at a switch, at the end of a
release, at the end of the scan and at a reset (R25, R26). -/
def Obligations.BindingChangesOnlyThen : Prop :=
  ∀ (c : Instr) (s t : State) (l : Sector), mayRebind c = false → exec c s = .next t →
    (mapEntry t l).binding = (mapEntry s l).binding

/-- A physical sector that is in one of the six sets stays in one of them at every command but a
reset and the end of a scan; and every step keeps sector accounting sound: the spare pool, the erase
queue and the retired list hold the sectors of their sets once each, TARGET and ERASING are the
engine's and the slots' sectors, no physical sector is bound twice, and the engines, the lanes, the
release and the scan hold what agrees with the map (R25, R27, R32, R34, R37, R38, R158, R171). -/
def Obligations.SetsLoseNoSector : Prop :=
  (∀ (c : Instr) (s t : State) (p : Phys), isReset c = false → c ≠ .scanEnd →
    exec c s = .next t → (membershipOf s p).isSome → (membershipOf t p).isSome) ∧
  ∀ s t : State, TablesCanonical s → WmbOrderly s.wmb → StartingQuiet s → SectorsAccounted s →
    step s = .next t → SectorsAccounted t

/-- No counter falls but at a reset and at CLEAR COUNTERS (R176). -/
def Obligations.CountersOnlyRise : Prop :=
  ∀ (c : Instr) (s t : State), isReset c = false → ¬ clearsCounters c → exec c s = .next t →
    s.link.counters.noneBelow t.link.counters

/-- The frame of each of the thirteen commands is judged to be that command: every parameter at every
value (R167, section 11.9). The check is the cyclic check of R44, and a tag field is blank where all
its bytes are hex FF, valid with its contents where the bytes are those of contents in range with their
check, and garbled else (R43, R44, R45, section 11.9). -/
def Obligations.FrameRoundTrip : Prop :=
  (∀ (c : Instr) (frame : List Byte), encodeFrame c = some frame → judgeFrame frame = .command c) ∧
  (crc8 [] = 0xFF#8 ∧ ∀ (bytes : List Byte) (b : Byte),
    let shift (r : Byte) : Byte :=
      if r.getLsbD 7 then (r <<< (1 : Nat)) ^^^ 0x07#8 else r <<< (1 : Nat)
    crc8 (bytes ++ [b]) =
      shift (shift (shift (shift (shift (shift (shift (shift (crc8 bytes ^^^ b))))))))) ∧
  (∀ bytes : List Byte, withCheck bytes = bytes ++ [crc8 bytes]) ∧
  (∀ (n : EraseCount) (l : Sector) (g : Gen),
    let gen : List Byte :=
      [g.extractLsb' 24 8, g.extractLsb' 16 8, g.extractLsb' 8 8, g.extractLsb' 0 8]
    (TagContents.count n).bytes =
      withCheck [n.extractLsb' 16 8, n.extractLsb' 8 8, n.extractLsb' 0 8] ∧
    (TagContents.claim l g).bytes =
      withCheck ([BitVec.ofNat 8 (l.val / 256), BitVec.ofNat 8 l.val] ++ gen) ∧
    (TagContents.sealing g).bytes = withCheck gen ∧ (TagContents.release g).bytes = withCheck gen ∧
    (TagContents.retire .program).bytes = withCheck [0xA5, 0x01] ∧
    (TagContents.retire .erase).bytes = withCheck [0xA5, 0x02] ∧
    (TagContents.retire .tag).bytes = withCheck [0xA5, 0x03]) ∧
  let inRange (c : TagContents) : Prop :=
    ∀ g : Gen, (∃ l, c = .claim l g) ∨ c = .sealing g ∨ c = .release g →
      1 ≤ g.toNat ∧ g.toNat ≤ 0xFFFFFFFE
  (∀ c, inRange c → judgeField c.field c.bytes = .valid c) ∧
  (∀ (f : TagField) (bytes : List Byte), bytes.length = f.length →
    ((∀ b ∈ bytes, b = 0xFF#8) → judgeField f bytes = .blank) ∧
    ((∃ b ∈ bytes, b ≠ 0xFF#8) →
      (∀ c, c.field = f → inRange c → bytes ≠ c.bytes) → judgeField f bytes = .garbled)) ∧
  ∀ tag : List Byte,
    let judged (f : TagField) (first n : Nat) : Prop :=
      judgeTag tag f = judgeField f ((tag.drop first).take n) ∧ f.length = n
    judged .count 0 4 ∧ judged .claim 8 7 ∧ judged .sealing 16 5 ∧ judged .release 24 5 ∧
      judged .retire 32 3

/-- The bytes of a happening's medium differ only in sectors that an operation in progress or an
erase names (R47, R56 to R58, R113). -/
def Obligations.MediumChangesUnderWork : Prop :=
  ∀ (c : Instr) (s t : State) (a : Nat), exec c s = .next t → untouched s a →
    t.medium.byte a = s.medium.byte a

/-! ### The shared operations -/

/-- Sealing gives the OPEN entry the next seal order and nothing else of it changes; an UNBACKED
sector that is not releasing is queued with BACKING (R7), but not in FAILED, where the map and the
relocation queue keep what they hold (log 24). A request to queue a sector acts by the sector's
relocation field, as the table of relocation requests says (R78). -/
def Obligations.SealingQueuesItsSector : Prop :=
  (∀ (s : State) (e : Entry), WmbOrderly s.wmb → e ∈ s.wmb.entries → e.isOpen = true →
    let sealed : State := { s with wmb := { s.wmb with
      entries := s.wmb.entries.map fun x =>
        if x = e then { e with stage := .sealed s.wmb.sealCounter } else x
      sealCounter := s.wmb.sealCounter + 1 } }
    sealEntry e.openOrder s =
      if s.power.op ≠ .failed ∧ (mapEntry s e.sector).binding = none ∧
          (mapEntry s e.sector).releasing = false then
        requestReloc e.sector .backing sealed
      else sealed) ∧
  (∀ (l : Sector) (s : State),
    let e := mapEntry s l
    let after (f : RelocField) (q : List RelocRecord) : State := { s with
      map := Table.store MapEntry.unbacked s.map l.val { e with reloc := f }
      reloc := { s.reloc with queue := q } }
    (e.reloc = .absent →
      requestReloc l .failure s = after (.queued .failure) (⟨l, .failure⟩ :: s.reloc.queue) ∧
      requestReloc l .backing s = after (.queued .backing) (s.reloc.queue ++ [⟨l, .backing⟩]) ∧
      requestReloc l .overwrite s =
        after (.queued .overwrite) (s.reloc.queue ++ [⟨l, .overwrite⟩])) ∧
    (e.reloc = .queued .backing ∨ e.reloc = .queued .overwrite →
      requestReloc l .failure s = after (.queued .failure)
        (⟨l, .failure⟩ :: s.reloc.queue.filter fun r => r.sector ≠ l) ∧
      requestReloc l .backing s = s ∧ requestReloc l .overwrite s = s) ∧
    (e.reloc = .queued .failure → ∀ r, requestReloc l r s = s) ∧
    (∀ t b, e.reloc = .inFlight t b →
      requestReloc l .backing s = after (.inFlight t true) s.reloc.queue ∧
      requestReloc l .overwrite s = s ∧ requestReloc l .failure s = s))

/-- A record takes the sequence counter's value and joins the tail of a queue of fewer than 16, else
it is dropped and counted in the overflow count, up to 255 (R174). A counter rises by the number
given, up to hex FFFFFFFF, and no other counter changes (R176). -/
def Obligations.RecordsAndCounters : Prop :=
  ∀ (s : State),
    (∀ b, s.link.faults.length < 16 → record b s = { s with link := { s.link with
      faults := s.link.faults ++ [⟨s.link.sequence, b⟩], sequence := s.link.sequence + 1 } }) ∧
    (∀ b, 16 ≤ s.link.faults.length → ∃ n : BitVec 8, n.toNat = min 255 (s.link.overflow.toNat + 1) ∧
      record b s = { s with link := { s.link with
        overflow := n, sequence := s.link.sequence + 1 } }) ∧
    ∀ k n, ∃ c : Counters, countUp k n s = { s with link := { s.link with counters := c } } ∧
      (c.value k).toNat = min 4294967295 ((s.link.counters.value k).toNat + n) ∧
      ∀ k', k' ≠ k → c.value k' = s.link.counters.value k'

/-- The overlay supplies, for a position of a line, the byte of the newest entry that holds it, and
nothing where none does (R20). -/
def Obligations.OverlayIsNewestByte : Prop :=
  ∀ (s : State) (line : LineNo) (i : Nat), WmbOrderly s.wmb →
    (∀ e ∈ s.wmb.entries, ∀ b, e.line = line → heldByte e.held i = some b →
      (∀ x ∈ s.wmb.entries, x.line = line → e.openOrder < x.openOrder →
        heldByte x.held i = none) →
      overlayByte s line i = some b) ∧
    ((∀ e ∈ s.wmb.entries, e.line = line → heldByte e.held i = none) →
      overlayByte s line i = none)

/-- What a scheduler does with what waits, by the state of its die (R114, R117, R123, R125, R126,
R128): a take, a report of IDLE, the end of a hold, a PAUSE, a DIE RESET; and that nothing else changes
but what an abandonment cuts: an erase HELD with an abandonment waiting. In FAILED and at an offline
die it does nothing. Of requests of one happening the one first in the list is taken (log 26); the
report stands past a take (log 29). -/
def Obligations.SchedulersChooseInOrder : Prop :=
  (∀ s : State,
    (s.power.op = .failed → settle s = s) ∧
    (s.power.op ≠ .failed →
      let cuts (d : DieId) (run : EraseRun) : Prop :=
        (s.dies.get d).state = .held run true ∧ (s.dies.get d).offline = false
      ∃ (m : Memory) (n : Nat),
        ((∀ run, ¬ cuts .die0 run) → m = s.medium ∧ n = s.draws) ∧
        (∀ run, cuts .die0 run → m = s.medium.cutErase s.draws run.phys ∧ n = s.draws + 1) ∧
        ((∀ run, ¬ cuts .die1 run) →
          settle s = { s with dies := (settle s).dies, medium := m, draws := n }) ∧
        (∀ run, cuts .die1 run → settle s = { s with
          dies := (settle s).dies, medium := m.cutErase n run.phys, draws := n + 1 })) ∧
    ∀ d, (s.dies.get d).offline = true → (settle s).dies.get d = s.dies.get d) ∧
  ∀ (s : State) (d : DieId), s.power.op ≠ .failed → (s.dies.get d).offline = false →
    let die := s.dies.get d
    let becomes (x : Die) : Prop := (settle s).dies.get d = x
    (die.state = .idle →
      (∀ r rest, firstOf Request.isHostRead die.waiting r rest →
        becomes { die with state := takenState r, waiting := rest }) ∧
      (die.waiting.any Request.isHostRead = false →
        (∀ r rest, firstOf Request.isInternal die.waiting r rest →
          becomes { die with state := takenState r, waiting := rest }) ∧
        (die.waiting.any Request.isInternal = false →
          (∀ r rest, firstOf Request.isEraseStart die.waiting r rest →
            becomes { die with state := takenState r, waiting := rest }) ∧
          (die.waiting.any Request.isEraseStart = false →
            becomes { die with reported := true })))) ∧
    (∀ run, die.state = .held run false →
      (∀ r rest, firstOf Request.isHostRead die.waiting r rest →
        becomes { die with
          state := .heldReading run r false 0, waiting := rest, reported := false }) ∧
      (die.waiting.any Request.isHostRead = false →
        (∀ r rest, firstOf (fun r => r.isInternal && r.op.isRead) die.waiting r rest →
          becomes { die with
            state := .heldReading run r false 0, waiting := rest, reported := false }) ∧
        (die.waiting.any (fun r => r.isInternal && r.op.isRead) = false →
          becomes { die with state := .erasing { run with progress := 0 }, reported := false }))) ∧
    (∀ run, die.state = .held run true →
      becomes { die with state := .resetting .abandonment 0 false, reported := false }) ∧
    (∀ run, die.state = .erasing run →
      (die.waiting.any Request.isHostRead = true → 400 ≤ run.progress → run.pauses < 48 →
        becomes { die with state := .pausing run.phys (some run) false 0, reported := false }) ∧
      (die.waiting.any Request.isHostRead = false ∨ run.progress < 400 ∨ 48 ≤ run.pauses →
        becomes die)) ∧
    ((∀ run, die.state ≠ .erasing run ∧ ∀ abandon, die.state ≠ .held run abandon) →
      die.state ≠ .idle → becomes die) ∧
    (∀ r : Request,
      (∀ p pos, r.op = .readLine p pos → takenState r = .reading r 0) ∧
      (∀ p, r.op = .readTag p → takenState r = .reading r 0) ∧
      (∀ p pos data, r.op = .programLine p pos data → takenState r = .programming r 0) ∧
      (∀ p c, r.op = .programTag p c → takenState r = .programming r 0) ∧
      (∀ p, r.op = .eraseSector p → takenState r = .erasing ⟨p, 0, 0, 0⟩))

/-- The passing of time: an OPEN entry's age (R8); at a die, the time of an operation, a PAUSE or a DIE
RESET, and progress and erasing time, which stand still in PAUSING, HELD and HELD-READING, and in FAILED
only the time of a DIE RESET (R119, R122, R129); a report of IDLE (log 29); the held cycle's stall, and
LONG STALLS when it reaches the threshold (R143). A stall that reaches the threshold is counted once; an
OPEN entry whose age reaches the commit delay is sealed; the time that is lacking passes first (R7, R8,
log 6). LONG_STALL without a held cycle not yet counted, and COMMIT_DELAY_EXPIRY without an OPEN entry
of the line, change nothing (log 4). -/
def Obligations.TimeCountsToItsLimits : Prop :=
  (∀ (dt : Nat) (s : State),
    let t := elapse dt s
    (t = { s with
      wmb := { s.wmb with entries := t.wmb.entries }
      dies := t.dies, host := t.host, link := t.link, now := s.now + dt }) ∧
    List.Forall₂ (fun e e' => e' = { e with stage := e'.stage } ∧
        (∀ age, e.stage = .opened age → e'.stage = .opened (age + dt)) ∧
        (e.isOpen = false → e'.stage = e.stage)) s.wmb.entries t.wmb.entries ∧
    (∀ d,
      let a := s.dies.get d
      let b := t.dies.get d
      b.waiting = a.waiting ∧ b.offline = a.offline ∧
      (b.reported = true ↔ a.reported = true ∧ (dt = 0 ∨ a.state = .idle)) ∧
      (∀ cause time answered, a.state = .resetting cause time answered →
        b.state = .resetting cause (time + dt) answered) ∧
      (a.state = .idle → b.state = .idle) ∧
      (∀ run abandon, a.state = .held run abandon → b.state = .held run abandon) ∧
      (s.power.op = .failed → (∀ cause time answered, a.state ≠ .resetting cause time answered) →
        b.state = a.state) ∧
      (s.power.op ≠ .failed →
        (∀ r time, a.state = .reading r time → b.state = .reading r (time + dt)) ∧
        (∀ r time, a.state = .programming r time → b.state = .programming r (time + dt)) ∧
        (∀ run, a.state = .erasing run → b.state = .erasing { run with
          progress := run.progress + dt, erasing := run.erasing + dt }) ∧
        (∀ p run abandon time, a.state = .pausing p run abandon time →
          b.state = .pausing p run abandon (time + dt)) ∧
        (∀ run r abandon time, a.state = .heldReading run r abandon time →
          b.state = .heldReading run r abandon (time + dt)))) ∧
    (heldCycle s = none → t.host = s.host ∧ t.link = s.link) ∧
    (∀ h, heldCycle s = some h →
      let reached := s.host.threshold.toNat ≤ h.stall + dt
      let later : HeldCycle := { h with
        stall := h.stall + dt, counted := h.counted || decide reached }
      (∀ ask, s.host.port = .reading (.cycle h) ask →
        t.host = { s.host with port := .reading (.cycle later) ask }) ∧
      (∀ ask, s.host.port = .reading (.abandoned (some h)) ask →
        t.host = { s.host with port := .reading (.abandoned (some later)) ask }) ∧
      (s.host.port = .writing h → t.host = { s.host with port := .writing later }) ∧
      (s.host.port = .holding h → t.host = { s.host with port := .holding later }) ∧
      t.link = if h.counted = false ∧ reached then (countUp .longStalls 1 s).link else s.link)) ∧
  (∀ (s : State) (h : HeldCycle), heldCycle s = some h ↔
    (∃ ask, s.host.port = .reading (.cycle h) ask) ∨
    (∃ ask, s.host.port = .reading (.abandoned (some h)) ask) ∨
    s.host.port = .writing h ∨ s.host.port = .holding h) ∧
  (∀ s : State,
    (∀ h, heldCycle s = some h →
      (h.counted = true → exec .longStall s = .next s) ∧
      (h.counted = false →
        let t := elapse (s.host.threshold.toNat - h.stall) s
        exec .longStall s = .next t ∧ t.link = (countUp .longStalls 1 s).link ∧
        heldCycle t = some { h with stall := max h.stall s.host.threshold.toNat, counted := true })) ∧
    (heldCycle s = none → exec .longStall s = .next s) ∧
    (∀ e age, WmbOrderly s.wmb → e ∈ s.wmb.entries → e.stage = .opened age →
      exec (.commitDelayExpiry e.line) s =
        .next (sealEntry e.openOrder (elapse (s.wmb.commitDelay.toNat - age) s))) ∧
    (∀ line, (∀ e ∈ s.wmb.entries, e.isOpen = true → e.line ≠ line) →
      exec (.commitDelayExpiry line) s = .next s))

/-- The target choice in its order: the generation, the spare for the class, the wait, the two
abandonments (R35, R54, R55, R81). -/
def Obligations.TargetChoiceInOrder : Prop :=
  ∀ (j : Job) (s : State) (g : Gen), s.reloc.generation = some g →
    (g = 0xFFFFFFFF#32 → chooseTarget j s = abandon j (some .generation) s) ∧
    (g ≠ 0xFFFFFFFF#32 →
      (∀ p rest, s.acct.pool = p :: rest → j.reason = .failure ∨ rest ≠ [] →
        let t := chooseTarget j s
        t = { s with
          map := t.map
          acct := { s.acct with recs := t.acct.recs, pool := rest }
          reloc := { s.reloc with
            engine := .claiming j p g false, generation := some (g + 1) }
          dies := (issue .relocation (.programTag p (.claim j.sector g)) s).dies } ∧
        membershipOf t p = some .target ∧ knownCount t p = knownCount s p ∧
        (∀ q, q ≠ p → membershipOf t q = membershipOf s q) ∧
        (∀ l, l ≠ j.sector → mapEntry t l = mapEntry s l) ∧
        (∀ old pending, (mapEntry s j.sector).reloc = .inFlight old pending →
          mapEntry t j.sector = { mapEntry s j.sector with reloc := .inFlight (some p) pending })) ∧
      (s.acct.pool = [] ∨ ((∃ p, s.acct.pool = [p]) ∧ j.reason ≠ .failure) →
        (s.acct.eraseQueue = [] ∧ (∀ c ∈ s.acct.recs, c.2.membership ≠ .erasing) →
          chooseTarget j s = abandon j (some .spares) s) ∧
        (s.acct.eraseQueue ≠ [] ∨ (∃ c ∈ s.acct.recs, c.2.membership = .erasing) →
          chooseTarget j s = { s with
            reloc := { s.reloc with engine := .awaitingSpare j } })))

/-- An abandonment: what it discards, its record, the sector's field, DEGRADED with its record and
the refusal of a held write, the engine IDLE (R91, R92, R39, R137). The record of DEGRADED comes
before that of the refused write (log 15). -/
def Obligations.AbandonmentGivesUp : Prop :=
  ∀ (j : Job) (why : Option DegradedReason) (s : State),
    let t := abandon j why s
    let lost := if foldedList s = [] then
        s.wmb.entries.filter fun e => e.isSealed && e.sector == j.sector
      else foldedList s
    let told := record (.relocationLoss j.sector lost.length) (countUp .linesLost lost.length s)
    let e := mapEntry s j.sector
    let again := e.binding = none ∧ e.releasing = false ∧
      ∃ x ∈ t.wmb.entries, x.isSealed = true ∧ x.sector = j.sector
    t = { s with power := t.power, wmb := t.wmb, map := t.map, host := t.host, link := t.link
                 reloc := { s.reloc with queue := t.reloc.queue, engine := .idle } } ∧
    t.wmb = { s.wmb with entries := s.wmb.entries.filter fun x => x ∉ lost } ∧
    (∀ l, l ≠ j.sector → mapEntry t l = mapEntry s l) ∧
    (again → mapEntry t j.sector = { e with reloc := .queued .backing } ∧
      t.reloc.queue = s.reloc.queue ++ [⟨j.sector, .backing⟩]) ∧
    (¬ again → mapEntry t j.sector = { e with reloc := .absent } ∧
      t.reloc.queue = s.reloc.queue) ∧
    (∀ r, why = some r → s.power.degraded = none →
      t.power = { s.power with degraded := some r } ∧
      (∀ h, s.host.port = .writing h →
        t.host = { s.host with port := .completed h.cycle none } ∧
        t.link = (countUp .refusedWrites 1 (record (.degradedWrite (lineOf h.cycle.addr))
          (record (.degradedEntered lost.length r) told))).link) ∧
      ((∀ h, s.host.port ≠ .writing h) → t.host = s.host ∧
        t.link = (record (.degradedEntered lost.length r) told).link)) ∧
    (why = none ∨ s.power.degraded ≠ none →
      t.host = s.host ∧ t.link = told.link ∧
      t.power = { s.power with
        degraded := if why = some .generation then some .generation else s.power.degraded })

/-- The copy goes on: a source line is read; without a source the next line that is not all hex FF is
programmed; past the last line the SEAL program is issued. A line is laid over oldest entry first, so
the newest folded byte prevails (R85). -/
def Obligations.CopyTakesNextLine : Prop :=
  ∀ (j : Job) (t : Phys) (g : Gen) (s : State),
    (∀ (pos : Pos) p, j.source = some p →
      copyFrom j t g pos.val s =
        issue .relocation (.readLine p pos) (setEngine (.copying j t g pos) s)) ∧
    (∀ (pos : Nat) (q : Pos), j.source = none → pos ≤ q.val →
      layFolded s (lineAt j.sector q) blankLine ≠ blankLine →
      (∀ x : Pos, pos ≤ x.val → x < q → layFolded s (lineAt j.sector x) blankLine = blankLine) →
      copyFrom j t g pos s =
        issue .relocation (.programLine t q (layFolded s (lineAt j.sector q) blankLine))
          (setEngine (.copying j t g q) s)) ∧
    (∀ pos : Nat, 2048 ≤ pos ∨ (j.source = none ∧
        ∀ x : Pos, pos ≤ x.val → layFolded s (lineAt j.sector x) blankLine = blankLine) →
      copyFrom j t g pos s =
        issue .relocation (.programTag t (.sealing g)) (setEngine (.sealing j t g) s)) ∧
    (∀ (line : LineNo) (start : LineData) (i : Nat), i < 32 → WmbOrderly s.wmb →
      (∀ e ∈ foldedList s, ∀ b, e.line = line → heldByte e.held i = some b →
        (∀ x ∈ foldedList s, x.line = line → e.openOrder < x.openOrder →
          heldByte x.held i = none) →
        lineByte (layFolded s line start) i = b) ∧
      ((∀ e ∈ foldedList s, e.line = line → heldByte e.held i = none) →
        lineByte (layFolded s line start) i = lineByte start i))

/-- A program that the die carries out clears the bits its contents hold at 0 and passes if the bytes
then equal the contents; an erase sets every bit of the sector to 1 (R47). One that is cut short or
ends FAIL leaves each bit at its old value or at its new, a tag field blank, garbled or as requested,
the main array erased before any bit of the tag area changes (R56, R57, R58). Which bits is a free
value; where no such value is allowed a field is left as it was (log 12). -/
def Obligations.MediumTakesOperations : Prop :=
  (∀ (m : Memory) (draw : Nat),
    (∀ (op : DieOp) (a : Nat) (want : List Byte), op.image = some (a, want) →
      let r := m.program draw op true
      (∀ i (h : i < want.length), r.1.byte (a + i) = m.byte (a + i) &&& want[i]) ∧
      (∀ x, x < a ∨ a + want.length ≤ x → r.1.byte x = m.byte x) ∧
      (r.2 = true ↔ r.1.bytes a want.length = want)) ∧
    (∀ (p : Phys) (x : Nat), (m.eraseSector p).byte x =
      if inSector p x then 0xFF#8 else m.byte x)) ∧
  (∀ (m : Memory) (draw : Nat), m.wf →
    (∀ (op : DieOp) (a : Nat) (want : List Byte), op.image = some (a, want) →
      let n := m.cutProgram draw op
      m.program draw op false = (n, false) ∧
      (∀ x, x < a ∨ a + want.length ≤ x → n.byte x = m.byte x) ∧
      (∀ i (h : i < want.length), n.byte (a + i) &&& ~~~ m.byte (a + i) = 0#8 ∧
        m.byte (a + i) &&& want[i] &&& ~~~ n.byte (a + i) = 0#8) ∧
      (∀ p c, op = .programTag p c → n.bytes a want.length = m.bytes a want.length ∨
        tornTagAllowed c (n.bytes a want.length) = true)) ∧
    (∀ (p : Phys),
      let n := m.cutErase draw p
      (∀ x, inSector p x = false → n.byte x = m.byte x) ∧
      (∀ x, m.byte x &&& ~~~ n.byte x = 0#8) ∧
      ((∃ x, tagAddr p ≤ x ∧ n.byte x ≠ m.byte x) →
        ∀ x, inSector p x = true → x < tagAddr p → n.byte x = 0xFF#8) ∧
      (∀ f : TagField,
        let old := fieldBytes f (m.tag p)
        let new := fieldBytes f (n.tag p)
        new = old ∨ judgeField f new = .blank ∨ judgeField f new = .garbled)))

/-! ### Resets, pins and the flush -/

/-- POR completes and every block takes its power-on value; the levels of PFAIL# and RST# are kept
(R155, log 11). Of the medium a program in progress is cut as its own cut states, an erase in progress,
held, pausing or read in its hold as a cut erase, first at die 0 and then at die 1, each with the next
free value; nothing else of it changes (R56 to R58, R113, log 12). -/
def Obligations.PorGivesItsValues : Prop :=
  (∀ s : State, ∃ t, exec .por s = .next t ∧
    let cut := cutInProgress .die1 (cutInProgress .die0 s)
    t = {
      pending := s.pending
      power := { s.power with op := .starting, degraded := none }
      wmb := { entries := [], openCounter := 0, sealCounter := 0, boundary := none
               commitDelay := 2000 }
      map := []
      acct := { recs := [], pool := [], eraseQueue := [], retired := [] }
      lanes := ⟨.idle, .idle⟩
      reloc := { queue := [], engine := .idle, generation := none }
      erase := { slots := ⟨.idle, .idle⟩, pauseList := [] }
      dies := ⟨⟨.resetting .partReset 0 false, [], false, false⟩,
        ⟨.resetting .partReset 0 false, [], false, false⟩⟩
      host := { port := .idle, threshold := 50 }
      regions := []
      scan := { progress := ⟨.waiting, .waiting⟩, judged := 0, classes := [], candidates := []
                highest := none }
      release := none
      link := { lastLong := none, response := withCheck [0xFF, 0xFF, 0x00], faults := []
                overflow := 0, sequence := 0, counters := ⟨0, 0, 0, 0, 0, 0, 0, 0, 0, 0⟩
                faultAttention := true, degradedAttention := true }
      medium := cut.medium
      now := 0
      draws := cut.draws } ∧
    (∀ a, untouched s a → t.medium.byte a = s.medium.byte a) ∧
    ∀ i, regionAt t i =
      { first := 0, last := 0, mode := .normal, enabled := false, frozen := false }) ∧
  ∀ (s : State) (d : DieId),
    let st := (s.dies.get d).state
    let erase (run : EraseRun) : Prop := st = .erasing run ∨
      (∃ abandon, st = .held run abandon) ∨
      (∃ r abandon time, st = .heldReading run r abandon time) ∨
      ∃ p abandon time, st = .pausing p (some run) abandon time
    (∀ r time, st = .programming r time → cutInProgress d s =
      { s with medium := s.medium.cutProgram s.draws r.op, draws := s.draws + 1 }) ∧
    (∀ run, erase run → cutInProgress d s =
      { s with medium := s.medium.cutErase s.draws run.phys, draws := s.draws + 1 }) ∧
    ((∀ r time, st ≠ .programming r time) → (∀ run, ¬ erase run) → cutInProgress d s = s)

/-- RST# completes as POR does, but keeps the commit delay, the stall threshold, the attention
enables and the frozen regions; other regions are disabled with range and mode kept, and a cycle the
host has not ended waits for the release of RST# (R131, R142, R153, R155, log 10). -/
def Obligations.RstKeepsItsSettings : Prop :=
  ∀ s : State, TablesCanonical s → ∃ t u, exec .rstAsserted s = .next t ∧ exec .por s = .next u ∧
    t = { u with
      power := { u.power with rst := true }
      wmb := { u.wmb with commitDelay := s.wmb.commitDelay }
      host := { port := t.host.port, threshold := s.host.threshold }
      regions := t.regions
      link := { u.link with
        faultAttention := s.link.faultAttention, degradedAttention := s.link.degradedAttention }
      now := s.now } ∧
    (∀ i, (regionAt s i).frozen = true → regionAt t i = regionAt s i) ∧
    (∀ i, (regionAt s i).frozen = false → regionAt t i = { regionAt s i with enabled := false }) ∧
    (s.host.port = .idle → t.host.port = .idle) ∧
    (∀ h, heldCycle s = some h → t.host.port = .inReset h.cycle) ∧
    (∀ c w, s.host.port = .completed c w → t.host.port = .inReset c) ∧
    (∀ c, s.host.port = .inReset c → t.host.port = .inReset c) ∧
    (∀ ask, s.host.port = .reading (.abandoned none) ask → t.host.port = .idle)

/-- RST# released: a cycle the host still presents is held, or in FAILED completed, and the scan of
each ready die begins at its lowest physical sector. RST# released while it is not asserted changes
nothing (log 4). In STARTING a cycle without a lane is held like any; in FAILED it completes, counted
nowhere (log 9). READY to the DIE RESET of a reset: the die is IDLE and, in STARTING with RST#
released, its scan begins; in FAILED it is disregarded, and that it came is kept (log 19); a READY not
awaited changes nothing (log 4) (R115, R129, R131, R132, R140, R141, R142, R156). -/
def Obligations.ScanBeginsOnReadyDies : Prop :=
  (∀ s : State,
    (s.power.rst = false → exec .rstReleased s = .next s) ∧
    (s.power.rst = true → s.power.op = .starting → ∃ t u, exec .rstReleased s = .next t ∧
      t = settle u ∧
      u = { s with
        power := { s.power with rst := false }, host := t.host, scan := t.scan, dies := u.dies } ∧
      (∀ c, s.host.port = .inReset c → t.host = { s.host with port := .holding ⟨c, 0, false⟩ }) ∧
      ((∀ c, s.host.port ≠ .inReset c) → t.host = s.host) ∧
      t.scan = { s.scan with progress := t.scan.progress } ∧
      ∀ d, ((s.dies.get d).state = .idle → s.scan.progress.get d = .waiting →
          t.scan.progress.get d = .reading (firstPhys d) ∧
            asked t .scanner (.readTag (firstPhys d)) ∧
            u.dies.get d = { s.dies.get d with waiting := (s.dies.get d).waiting ++
              [⟨.scanner, .readTag (firstPhys d), s.now⟩] }) ∧
        ((s.dies.get d).state ≠ .idle ∨ s.scan.progress.get d ≠ .waiting →
          t.scan.progress.get d = s.scan.progress.get d ∧ u.dies.get d = s.dies.get d)) ∧
    (s.power.rst = true → s.power.op = .failed → ∃ t, exec .rstReleased s = .next t ∧
      t = { s with power := { s.power with rst := false }, host := t.host, link := t.link } ∧
      (∀ c, s.host.port = .inReset c →
        t.host = { s.host with port := .completed c (if c.kind = .read then some 0xFFFF else none) } ∧
        (c.low = true ∨ c.high = true → t.link =
          (countUp (if c.kind = .read then .hostReads else .refusedWrites) 1 s).link) ∧
        (c.low = false → c.high = false → t.link = s.link)) ∧
      ((∀ c, s.host.port ≠ .inReset c) → t.host = s.host ∧ t.link = s.link))) ∧
  (∀ (s : State) (d : DieId) (time : Nat),
    ((s.dies.get d).state = .resetting .partReset time false → (s.dies.get d).offline = false →
      (s.power.op = .failed → exec (.dieReadyAfterReset d) s =
        .next (setDieState d (.resetting .partReset time true) s)) ∧
      (s.power.op = .starting → s.power.rst = false → s.scan.progress.get d = .waiting →
        exec (.dieReadyAfterReset d) s = .next (settle (issue .scanner (.readTag (firstPhys d))
          { setDieState d .idle s with scan := { s.scan with
            progress := s.scan.progress.set d (.reading (firstPhys d)) } }))) ∧
      (s.power.op ≠ .failed → s.power.op ≠ .starting ∨ s.power.rst = true ∨
          s.scan.progress.get d ≠ .waiting →
        exec (.dieReadyAfterReset d) s = .next (settle (setDieState d .idle s)))) ∧
    ((∀ time, (s.dies.get d).state ≠ .resetting .partReset time false) ∨
        (s.dies.get d).offline = true →
      exec (.dieReadyAfterReset d) s = .next s))

/-- PFAIL# asserted: in RUNNING the part enters POWERDOWN, every OPEN entry is sealed with what that asks
of the map and the relocation queue, a waiting erase start is withdrawn and an erase begun is abandoned;
in another state only the level is seen (R7, R13, R108, R128, R161). -/
def Obligations.PfailEntersPowerdown : Prop :=
  ∀ s : State,
    (s.power.op ≠ .running →
      exec .pfailAsserted s = .next { s with power := { s.power with pfail := true } }) ∧
    (s.power.op = .running → WmbOrderly s.wmb → ∃ t, exec .pfailAsserted s = .next t ∧
      t = { s with
        power := { s.power with op := .powerdown, pfail := true }
        wmb := { s.wmb with
          entries := sealedFrom s.wmb.sealCounter s.wmb.entries
          sealCounter := s.wmb.sealCounter + s.wmb.entries.countP Entry.isOpen }
        map := t.map, acct := t.acct, reloc := t.reloc
        erase := { s.erase with slots := t.erase.slots }
        dies := t.dies, medium := t.medium, draws := t.draws } ∧
      asksBacking (fun e => e.isOpen = true) s t ∧
      ∀ d,
        ((∀ i, s.erase.slots.get d ≠ .erasing i) →
          t.erase.slots.get d = s.erase.slots.get d) ∧
        (∀ i, s.erase.slots.get d = .erasing i → (s.dies.get d).startWaits = true →
          t.erase.slots.get d = .idle ∧ (t.dies.get d).startWaits = false ∧
          membershipOf t i.phys = some .queuedForErase ∧
          ⟨i.phys, knownCount s i.phys⟩ ∈ t.acct.eraseQueue) ∧
        (∀ i, s.erase.slots.get d = .erasing i → (s.dies.get d).startWaits = false →
          t.erase.slots.get d = .erasing i ∧
          (∀ run, (s.dies.get d).state = .erasing run ∨
              (∃ abandon, (s.dies.get d).state = .held run abandon) →
            (t.dies.get d).state = .resetting .abandonment 0 false) ∧
          (∀ p run abandon time, (s.dies.get d).state = .pausing p (some run) abandon time →
            (t.dies.get d).state = .pausing p (some run) true time) ∧
          (∀ run r abandon time, (s.dies.get d).state = .heldReading run r abandon time →
            (t.dies.get d).state = .heldReading run r true time)))

/-- PFAIL# released: in POWERDOWN the part returns to RUNNING, a held write is presented, and the
relocation engine folds or chooses if it waits so; in another state only the level is seen (R83,
R96, R139, R162). The port acts before the engine (log 14). -/
def Obligations.PfailReleaseReturns : Prop :=
  ∀ s : State,
    (s.power.op ≠ .powerdown →
      exec .pfailReleased s = .next { s with power := { s.power with pfail := false } }) ∧
    (s.power.op = .powerdown → ∃ u,
      exec .heldWritePresented { s with
        power := { s.power with op := .running, pfail := false } } = .next u ∧
      (∀ j t g, s.reloc.engine = .claiming j t g true →
        exec .pfailReleased s = .next (settle (copyFrom j t g 0 { u with
          wmb := { u.wmb with entries := u.wmb.entries.map (Entry.folded j.sector) } }))) ∧
      (∀ j, s.reloc.engine = .awaitingSpare j → foldedList u = [] →
        exec .pfailReleased s = .next (settle (chooseTarget j u))) ∧
      ((∀ j t g, s.reloc.engine ≠ .claiming j t g true) →
        (∀ j, s.reloc.engine ≠ .awaitingSpare j) ∨ foldedList u ≠ [] →
        exec .pfailReleased s = .next (settle u)))

/-- FLUSH# seals every OPEN entry in ascending open order and sets no boundary; the FLUSH command
seals them too and waits for the entries below its boundary, or is DONE at once where none is; the
drain report clears the boundary and ends the command once none is left. The sealing queues the sectors
as R7 says, but in FAILED the map and the relocation queue keep what they hold (log 24). A drain report
with no boundary, or before the drain, changes nothing (log 4) (R7, R11, R12, R41, R163, R169,
R170). -/
def Obligations.FlushSealsAndWaits : Prop :=
  ∀ s : State,
    (WmbOrderly s.wmb →
      let sealed : Wmb := { s.wmb with
        entries := sealedFrom s.wmb.sealCounter s.wmb.entries
        sealCounter := s.wmb.sealCounter + s.wmb.entries.countP Entry.isOpen }
      (s.power.op = .failed → exec .flushFallingEdge s = .next { s with wmb := sealed }) ∧
      (s.power.op ≠ .failed → ∃ t, exec .flushFallingEdge s = .next t ∧
        t = { s with wmb := sealed, map := t.map, reloc := t.reloc } ∧
        asksBacking (fun e => e.isOpen = true) s t) ∧
      (s.power.op = .running ∨ s.power.op = .powerdown → commandInProgress s = false →
        (s.wmb.entries = [] → exec .flush s = .next { s with
          wmb := { s.wmb with boundary := none }
          link := { s.link with
            lastLong := some ⟨.flush, true⟩, response := responseFrame .done 0x02 [] } }) ∧
        (s.wmb.entries ≠ [] → ∃ t u, exec .flush s = .next t ∧ exec .flushFallingEdge s = .next u ∧
          t = { u with
            wmb := { sealed with boundary := some s.wmb.openCounter }
            link := { s.link with
              lastLong := some ⟨.flush, false⟩
              response := responseFrame .accepted 0x02 [] } }))) ∧
    (∀ b, s.wmb.boundary = some b →
      ((∃ e ∈ s.wmb.entries, e.openOrder < b) → exec .flushDrain s = .next s) ∧
      ((∀ e ∈ s.wmb.entries, b ≤ e.openOrder) → ∃ t, exec .flushDrain s = .next t ∧
        t = { s with wmb := { s.wmb with boundary := none }, link := t.link } ∧
        (s.link.lastLong = some ⟨.flush, false⟩ →
          t.link = { s.link with lastLong := some ⟨.flush, true⟩ }) ∧
        (s.link.lastLong ≠ some ⟨.flush, false⟩ → t.link = s.link))) ∧
    (s.wmb.boundary = none → exec .flushDrain s = .next s)

/-! ### The host port -/

/-- How the WMB takes a presented write: merged into the line's OPEN entry and sealed if its mask is
then full, or opened in a FREE entry, sealed at once with a commit delay of 0, the oldest OPEN entry
sealed at 24 in use; FULL where neither can be (R3, R4, R5, R8, R9, R10). -/
def Obligations.WmbTakesWrites : Prop :=
  ∀ (s : State) (line : LineNo) (bytes : List (Option Byte)), WmbOrderly s.wmb →
    let opened : State := { s with wmb := { s.wmb with
      entries := s.wmb.entries ++ [⟨line, bytes, s.wmb.openCounter, .opened 0⟩]
      openCounter := s.wmb.openCounter + 1 } }
    let delayed := if s.wmb.commitDelay = 0 then sealEntry s.wmb.openCounter opened else opened
    (∀ e ∈ s.wmb.entries, e.isOpen = true → e.line = line →
      let merged : State := { s with wmb := { s.wmb with
        entries := s.wmb.entries.map fun x =>
          if x = e then { e with held := mergeHeld bytes e.held } else x } }
      presentWrite line bytes s = some
        (if fullMask (mergeHeld bytes e.held) then sealEntry e.openOrder merged else merged)) ∧
    ((∀ e ∈ s.wmb.entries, e.isOpen = true → e.line ≠ line) →
      (s.wmb.entries.length = 32 → presentWrite line bytes s = none) ∧
      (s.wmb.entries.length < 23 → presentWrite line bytes s = some delayed) ∧
      (23 ≤ s.wmb.entries.length → s.wmb.entries.length < 32 →
        (∀ o ∈ delayed.wmb.entries, o.isOpen = true →
          (∀ x ∈ delayed.wmb.entries, x.isOpen = true → o.openOrder ≤ x.openOrder) →
          presentWrite line bytes s = some (sealEntry o.openOrder delayed)) ∧
        ((∀ o ∈ delayed.wmb.entries, o.isOpen = false) →
          presentWrite line bytes s = some delayed))) ∧
    (∀ (new old : List (Option Byte)) (i : Nat), i < 32 →
      heldByte (mergeHeld new old) i = (heldByte new i).or (heldByte old i)) ∧
    (∀ h : List (Option Byte), fullMask h = true ↔ ∀ i < 32, heldByte h i ≠ none) ∧
    ∀ (c : HostCycle) (data : HostWord) (i : Nat), i < 32 →
      heldByte (writeBytes c data) i =
        if c.low = true ∧ i = 2 * (c.addr.toNat % 16) then some (data.extractLsb' 0 8)
        else if c.high = true ∧ i = 2 * (c.addr.toNat % 16) + 1 then some (data.extractLsb' 8 8)
        else none

/-- A read that completes at its arrival, or waits unhandled: in STARTING (one with no lane too), with no
lane elsewhere, in FAILED, in a NO-ACCESS region, from the overlay and hex FF, under RST#, behind an
abandoned read (logs 8 and 9 say what the spec leaves open) (R131 to R134, R140, R141, R160). -/
def Obligations.HostReadAnsweredAtOnce : Prop :=
  ∀ (addr : WordAddr) (low high : Bool) (s : State),
    let c : HostCycle := ⟨addr, low, high, .read⟩
    let done (w : HostWord) (u : State) : State := countUp .hostReads 1 (setPort (.completed c (some w)) u)
    let lowByte := overlayByte s (lineOf addr) (2 * (addr.toNat % 16))
    let highByte := overlayByte s (lineOf addr) (2 * (addr.toNat % 16) + 1)
    let e := mapEntry s (sectorOf (lineOf addr))
    (s.power.rst = true →
      exec (.hostRead addr low high) s = .next (settle (setPort (.inReset c) s))) ∧
    (s.power.rst = false → ∀ who ask, s.host.port = .reading who ask →
      exec (.hostRead addr low high) s =
        .next (settle (setPort (.reading (.abandoned (some ⟨c, 0, false⟩)) ask) s))) ∧
    (s.power.rst = false → portTakes s →
      (s.power.op = .starting → exec (.hostRead addr low high) s =
        .next (settle (setPort (.holding ⟨c, 0, false⟩) s))) ∧
      (s.power.op ≠ .starting → low = false → high = false → exec (.hostRead addr low high) s =
        .next (settle (setPort (.completed c (some 0xFFFF)) s))) ∧
      (low = true ∨ high = true →
        (s.power.op = .failed → exec (.hostRead addr low high) s = .next (done 0xFFFF s)) ∧
        (s.power.op = .running ∨ s.power.op = .powerdown →
          (∀ i, governing s (pageOf addr) = some i → (regionAt s i).mode = .noAccess →
            exec (.hostRead addr low high) s =
              .next (settle (done 0xFFFF (record (.regionRead (lineOf addr) i) s)))) ∧
          (modeAt s (pageOf addr) ≠ .noAccess →
            e.binding = none ∨ e.releasing = true ∨
              ((low = true → lowByte ≠ none) ∧ (high = true → highByte ≠ none)) →
            exec (.hostRead addr low high) s = .next (settle (done
              ((if high then highByte.getD 0xFF else 0xFF#8) ++
                (if low then lowByte.getD 0xFF else 0xFF#8)) s))))))

/-- A read that the overlay does not cover asks for the line of the bound physical sector, and
completes from it; an abandoned read's line is discarded (R134, R135, R142). -/
def Obligations.HostReadGoesToMedium : Prop :=
  (∀ (addr : WordAddr) (low high : Bool) (s : State) (b : Binding),
    let line := lineOf addr
    let lowByte := overlayByte s line (2 * (addr.toNat % 16))
    let highByte := overlayByte s line (2 * (addr.toNat % 16) + 1)
    s.power.rst = false → portTakes s → s.power.op = .running ∨ s.power.op = .powerdown →
    modeAt s (pageOf addr) ≠ .noAccess → (mapEntry s (sectorOf line)).binding = some b →
    (mapEntry s (sectorOf line)).releasing = false →
    (low = true ∧ lowByte = none) ∨ (high = true ∧ highByte = none) →
    exec (.hostRead addr low high) s =
      .next (settle (issue .hostPort (.readLine b.phys (posOf line)) (setPort
        (.reading (.cycle ⟨⟨addr, low, high, .read⟩, 0, false⟩)
          ⟨b.phys, posOf line, lowByte, highByte⟩) s)))) ∧
  (∀ (s : State) (who : ReadFor) (ask : ReadAsk) (r : Request) (p : Phys) (pos : Pos),
    s.power.op ≠ .failed → s.host.port = .reading who ask →
    (s.dies.get (dieOf ask.phys)).inProgress = some r → r.requester = .hostPort →
    r.op = .readLine p pos →
    let ended := endOperation (dieOf ask.phys) s
    let line := s.medium.line p pos
    (∀ h, who = .cycle h →
      let i := 2 * (h.cycle.addr.toNat % 16)
      exec .hostReadLineResult s = .next (settle (countUp .hostReads 1 (setPort
        (.completed h.cycle (some
          ((if h.cycle.high then ask.highByte.getD (lineByte line (i + 1)) else 0xFF#8) ++
            (if h.cycle.low then ask.lowByte.getD (lineByte line i) else 0xFF#8)))) ended)))) ∧
    (who = .abandoned none →
      exec .hostReadLineResult s = .next (settle (setPort .idle ended))) ∧
    (∀ h, who = .abandoned (some h) →
      exec .hostReadLineResult s = .next (settle (handleArrival h (setPort .idle ended)))))

/-- A write at its arrival: taken by the WMB, held, or completed and dropped with its record and
count; in STARTING it is held whatever its lanes (logs 8 and 9 say what the spec leaves open) (R131,
R132, R136 to R141, R160). -/
def Obligations.HostWriteMeetsItsChecks : Prop :=
  ∀ (addr : WordAddr) (data : HostWord) (low high : Bool) (s : State),
    let c : HostCycle := ⟨addr, low, high, .write data⟩
    let outcome := exec (.hostWrite addr data low high) s
    let dropped (u : State) : State := countUp .refusedWrites 1 (setPort (.completed c none) u)
    (s.power.rst = true → outcome = .next (setPort (.inReset c) s)) ∧
    (s.power.rst = false → ∀ who ask, s.host.port = .reading who ask →
      outcome = .next (setPort (.reading (.abandoned (some ⟨c, 0, false⟩)) ask) s)) ∧
    (s.power.rst = false → portTakes s →
      (s.power.op = .starting → outcome = .next (setPort (.holding ⟨c, 0, false⟩) s)) ∧
      (s.power.op ≠ .starting → low = false → high = false →
        outcome = .next (setPort (.completed c none) s)) ∧
      (low = true ∨ high = true →
        (s.power.op = .failed → outcome = .next (dropped s)) ∧
        (s.power.op = .running ∨ s.power.op = .powerdown →
          (∀ i, governing s (pageOf addr) = some i →
            (regionAt s i).mode = .readOnly ∨ (regionAt s i).mode = .noAccess →
            outcome = .next (dropped (record (.regionWrite (lineOf addr) i) s))) ∧
          (modeAt s (pageOf addr) = .normal ∨ modeAt s (pageOf addr) = .clearOnly →
            (s.power.degraded ≠ none →
              outcome = .next (dropped (record (.degradedWrite (lineOf addr)) s))) ∧
            (s.power.degraded = none → s.power.op = .powerdown →
              outcome = .next (setPort (.writing ⟨c, 0, false⟩) s)) ∧
            (s.power.degraded = none → s.power.op = .running →
              (presentWrite (lineOf addr) (writeBytes c data) s = none →
                outcome = .next (setPort (.writing ⟨c, 0, false⟩) s)) ∧
              (∀ taken, presentWrite (lineOf addr) (writeBytes c data) s = some taken →
                outcome = .next (countUp .hostWrites 1 (setPort (.completed c none) taken))))))))

/-- The host's release: after completion the port is IDLE with no cycle; before it a held or waiting
cycle is dropped, and a read in READING leaves its READ LINE outstanding; a release of a cycle that is
not there changes nothing (log 4) (R131, R142). A held write
presented again meets the DEGRADED check and the WMB, in RUNNING only; the region is not checked again
(R6, R138, R139). HRDY is low while a cycle is held and while RST# is asserted (R131, R142, log 10). -/
def Obligations.HeldCyclesGoOnOrEnd : Prop :=
  (∀ s : State,
    (∀ c w, s.host.port = .completed c w →
      exec .hostCycleEnd s = .next (setPort .idle s) ∧ exec .hostCycleAbandoned s = .next s) ∧
    ((∀ c w, s.host.port ≠ .completed c w) → exec .hostCycleEnd s = .next s) ∧
    (∀ who ask, s.host.port = .reading who ask →
      exec .hostCycleAbandoned s = .next (setPort (.reading (.abandoned none) ask) s)) ∧
    ((∃ h, s.host.port = .writing h ∨ s.host.port = .holding h) ∨
        (∃ c, s.host.port = .inReset c) →
      exec .hostCycleAbandoned s = .next (setPort .idle s)) ∧
    (s.host.port = .idle → exec .hostCycleAbandoned s = .next s)) ∧
  (∀ (s : State) (h : HeldCycle) (data : HostWord),
    s.host.port = .writing h → h.cycle.kind = .write data →
    (s.power.op ≠ .running → exec .heldWritePresented s = .next s) ∧
    (s.power.op = .running →
      (s.power.degraded ≠ none → exec .heldWritePresented s =
        .next (countUp .refusedWrites 1 (setPort (.completed h.cycle none)
          (record (.degradedWrite (lineOf h.cycle.addr)) s)))) ∧
      (s.power.degraded = none →
        (presentWrite (lineOf h.cycle.addr) (writeBytes h.cycle data) s = none →
          exec .heldWritePresented s = .next s) ∧
        (∀ taken, presentWrite (lineOf h.cycle.addr) (writeBytes h.cycle data) s = some taken →
          exec .heldWritePresented s = .next
            (countUp .hostWrites 1 (setPort (.completed h.cycle none) taken)))))) ∧
  ∀ s : State, hrdy s = false ↔
    s.power.rst = true ∨ (∃ h, heldCycle s = some h) ∨ ∃ c, s.host.port = .inReset c

/-! ### Commits in place -/

/-- An IDLE lane takes, among its candidates, the entry with the oldest seal order, and asks for the
line of the bound physical sector; without a candidate it stays IDLE. A LANE_TAKE of a lane that is not
IDLE, or in another operating state, changes nothing (log 4) (R16, R61, R62, R75). -/
def Obligations.LaneTakesOldestCandidate : Prop :=
  ∀ (s : State) (d : DieId),
    (∀ e, isCandidate s d e = true ↔
      e.isSealed = true ∧
      (∃ b, (mapEntry s e.sector).binding = some b ∧ dieOf b.phys = d) ∧
      (mapEntry s e.sector).reloc = .absent ∧ (mapEntry s e.sector).releasing = false ∧
      ∀ x ∈ s.wmb.entries, x.line = e.line → e.openOrder ≤ x.openOrder) ∧
    (s.lanes.get d ≠ .idle ∨ (s.power.op ≠ .running ∧ s.power.op ≠ .powerdown) →
      exec (.laneTake d) s = .next s) ∧
    (s.lanes.get d = .idle → s.power.op = .running ∨ s.power.op = .powerdown →
      ((∀ e ∈ s.wmb.entries, isCandidate s d e = false) →
        exec (.laneTake d) s = .next (settle s)) ∧
      ∀ e b, WmbOrderly s.wmb → e ∈ s.wmb.entries → isCandidate s d e = true →
        (∀ x ∈ s.wmb.entries, isCandidate s d x = true → x ≠ e → e.sealOrder < x.sealOrder) →
        (mapEntry s e.sector).binding = some b →
        exec (.laneTake d) s =
          .next (settle (issue .lane (.readLine b.phys (posOf e.line)) { s with
            wmb := { s.wmb with entries := s.wmb.entries.map fun x =>
              if x = e then { e with stage := .committing e.sealOrder (.lane d) } else x }
            lanes := s.lanes.set d (.reading e.openOrder b.phys) })))

/-- The returned line decides the commit: nothing to program and the entry is freed; a program; a
discard with CLEAR-ONLY LOSS; or the hand-off with OVERWRITE (R63, R64, R66 to R69). -/
def Obligations.LaneReadDecidesTheCommit : Prop :=
  ∀ (s : State) (d : DieId) (r : Request) (p' : Phys) (pos : Pos) (id : Nat) (p : Phys)
    (e : Entry) (o : Nat),
    s.power.op ≠ .failed → (s.dies.get d).inProgress = some r → r.requester = .lane →
    r.op = .readLine p' pos → s.lanes.get d = .reading id p → WmbOrderly s.wmb →
    e ∈ s.wmb.entries → e.openOrder = id → e.stage = .committing o (.lane d) →
    let medium := s.medium.line p' pos
    let target := layOver e.held medium
    let ended := endOperation d s
    let freed : State := { ended with
      wmb := { s.wmb with entries := s.wmb.entries.filter fun x => x ≠ e }
      lanes := s.lanes.set d .idle }
    let passes := ∀ i < 32, lineByte target i &&& ~~~ lineByte medium i = 0#8
    (∀ i < 32, lineByte target i = (heldByte e.held i).getD (lineByte medium i)) ∧
    (passes → target = medium → exec (.laneReadLineResult d) s =
      .next (settle (countUp .linesCommitted 1 freed))) ∧
    (passes → target ≠ medium → exec (.laneReadLineResult d) s =
      .next (settle (issue .lane (.programLine p (posOf e.line) target)
        { ended with lanes := s.lanes.set d (.programming id p medium target) }))) ∧
    (¬ passes → ∀ i, governing s (pageOfLine e.line) = some i → (regionAt s i).mode = .clearOnly →
      exec (.laneReadLineResult d) s = .next (settle (record (.clearOnlyLoss e.line i)
        (countUp .linesLost 1 freed)))) ∧
    (¬ passes → modeAt s (pageOfLine e.line) ≠ .clearOnly →
      exec (.laneReadLineResult d) s = .next (settle (requestReloc e.sector .overwrite { ended with
        wmb := { s.wmb with entries := s.wmb.entries.map fun x =>
          if x = e then { e with stage := .sealed o } else x }
        lanes := s.lanes.set d .idle })))

/-- The in-place program ends: passed, the entry is freed and counted; failed, it is returned, the
sector is suspect and queued with FAILURE, and a PROGRAM FAIL record is made (R67, R70, R28). -/
def Obligations.LaneProgramEnds : Prop :=
  (∀ (s : State) (d : DieId) (r : Request) (p' : Phys) (pos : Pos) (data : LineData) (ok : Bool),
    s.power.op ≠ .failed → (s.dies.get d).inProgress = some r → r.requester = .lane →
    r.op = .programLine p' pos data →
    exec (.laneProgramLineResult d ok) s = .next (settle (laneProgrammed d
      (s.medium.program s.draws r.op ok).2
      { endOperation d s with
        medium := (s.medium.program s.draws r.op ok).1
        draws := if ok then s.draws else s.draws + 1 }))) ∧
  ∀ (u : State) (d : DieId) (id : Nat) (p : Phys) (medium target : LineData) (e : Entry) (o : Nat),
    u.lanes.get d = .programming id p medium target → WmbOrderly u.wmb →
    e ∈ u.wmb.entries → e.openOrder = id → e.stage = .committing o (.lane d) →
    laneProgrammed d true u = countUp .linesCommitted 1 { u with
      wmb := { u.wmb with entries := u.wmb.entries.filter fun x => x ≠ e }
      lanes := u.lanes.set d .idle } ∧
    laneProgrammed d false u = laneProgramFails d u ∧
    laneProgramFails d u = record (.programFail p (some e.line)) (requestReloc e.sector .failure
      { u with
        wmb := { u.wmb with entries := u.wmb.entries.map fun x =>
          if x = e then { e with stage := .sealed o } else x }
        map := Table.store MapEntry.unbacked u.map e.sector.val
          { mapEntry u e.sector with suspect := true }
        lanes := u.lanes.set d .idle })

/-! ### Relocation -/

/-- The relocation engine takes the head of its queue when IDLE in RUNNING, with the sector's binding
as its source, and makes the target choice; a report makes it choose again while AWAITING SPARE. A take
that is not due, and a report that none awaits, change nothing (log 4) (R80, R82, R96). -/
def Obligations.RelocationTakesHead : Prop :=
  ∀ s : State,
    (s.reloc.engine ≠ .idle ∨ s.power.op ≠ .running → exec .relocationTake s = .next s) ∧
    (s.reloc.engine = .idle → s.power.op = .running →
      (s.reloc.queue = [] → exec .relocationTake s = .next (settle s)) ∧
      ∀ r rest, s.reloc.queue = r :: rest → exec .relocationTake s =
        .next (settle (chooseTarget
          { sector := r.sector, reason := r.reason
            source := (mapEntry s r.sector).binding.map (·.phys), failedTargets := 0 }
          { s with
            map := Table.store MapEntry.unbacked s.map r.sector.val
              { mapEntry s r.sector with reloc := .inFlight none false }
            reloc := { s.reloc with queue := rest } }))) ∧
    ((∀ j, s.reloc.engine ≠ .awaitingSpare j) → exec .spareReport s = .next s) ∧
    (∀ j, s.reloc.engine = .awaitingSpare j →
      (s.power.op = .running ∨ (s.power.op = .powerdown ∧ foldedList s ≠ []) →
        exec .spareReport s = .next (settle (chooseTarget j s))) ∧
      (s.power.op ≠ .running → s.power.op ≠ .powerdown ∨ foldedList s = [] →
        exec .spareReport s = .next (settle s)))

/-- The claim ends: it folds the sector's SEALED entries and begins the copy, copies without a new
fold, waits in POWERDOWN with fold pending, or the target has failed (R18, R83, R84, R89). -/
def Obligations.ClaimEndsInFold : Prop :=
  (∀ (s : State) (j : Job) (t : Phys) (g : Gen) (wait : Bool) (r : Request) (p : Phys)
    (c : TagContents) (ok : Bool),
    s.power.op ≠ .failed → s.reloc.engine = .claiming j t g wait →
    (s.dies.get (dieOf t)).inProgress = some r → r.requester = .relocation →
    r.op = .programTag p c →
    exec (.claimResult ok) s = .next (settle (claimEnds (s.medium.program s.draws r.op ok).2
      { endOperation (dieOf t) s with
        medium := (s.medium.program s.draws r.op ok).1
        draws := if ok then s.draws else s.draws + 1 }))) ∧
  (∀ (u : State) (j : Job) (t : Phys) (g : Gen) (wait : Bool),
    u.reloc.engine = .claiming j t g wait →
    (foldedList u ≠ [] → claimEnds true u = copyFrom j t g 0 u) ∧
    (foldedList u = [] → u.power.op = .powerdown →
      claimEnds true u = setEngine (.claiming j t g true) u) ∧
    (foldedList u = [] → u.power.op ≠ .powerdown → claimEnds true u = copyFrom j t g 0 { u with
      wmb := { u.wmb with entries := u.wmb.entries.map (Entry.folded j.sector) } }) ∧
    claimEnds false u = issue .relocation (.programTag t (.retire .tag))
      (setEngine (.retiringTarget { j with failedTargets := j.failedTargets + 1 } t g .tag)
        (record (.programFail t none) u))) ∧
  ∀ (l : Sector) (e : Entry),
    (∀ o, e.stage = .sealed o → sectorOf e.line = l →
      Entry.folded l e = { e with stage := .committing o .fold }) ∧
    (e.isSealed = false ∨ sectorOf e.line ≠ l → Entry.folded l e = e)

/-- A source line returns and is programmed with the folded entries laid over it, or skipped where it
is all hex FF; a programmed line lets the copy go on, a failed one fails the target (R85, R89). -/
def Obligations.CopyProgramsItsLines : Prop :=
  (∀ (s : State) (j : Job) (t : Phys) (g : Gen) (pos : Pos) (source : Phys) (r : Request)
    (p : Phys) (q : Pos),
    s.power.op ≠ .failed → s.reloc.engine = .copying j t g pos → j.source = some source →
    (s.dies.get (dieOf source)).inProgress = some r → r.requester = .relocation →
    r.op = .readLine p q →
    let line := layFolded s (lineAt j.sector pos) (s.medium.line p q)
    let ended := endOperation (dieOf source) s
    (line = blankLine →
      exec .copyReadLineResult s = .next (settle (copyFrom j t g (pos.val + 1) ended))) ∧
    (line ≠ blankLine → exec .copyReadLineResult s =
      .next (settle (issue .relocation (.programLine t pos line) ended)))) ∧
  (∀ (s : State) (j : Job) (t : Phys) (g : Gen) (pos : Pos) (r : Request) (p : Phys) (q : Pos)
    (data : LineData) (ok : Bool),
    s.power.op ≠ .failed → s.reloc.engine = .copying j t g pos →
    (s.dies.get (dieOf t)).inProgress = some r → r.requester = .relocation →
    r.op = .programLine p q data →
    exec (.copyProgramLineResult ok) s =
      .next (settle (copyProgramEnds (s.medium.program s.draws r.op ok).2
        { endOperation (dieOf t) s with
          medium := (s.medium.program s.draws r.op ok).1
          draws := if ok then s.draws else s.draws + 1 }))) ∧
  ∀ (u : State) (j : Job) (t : Phys) (g : Gen) (pos : Pos), u.reloc.engine = .copying j t g pos →
    copyProgramEnds true u = copyFrom j t g (pos.val + 1) u ∧
    copyProgramEnds false u = issue .relocation (.programTag t (.retire .program))
      (setEngine (.retiringTarget { j with failedTargets := j.failedTargets + 1 } t g .program)
        (record (.programFail t (some (lineAt j.sector pos))) u))

/-- The SEAL program passes and the switch is made: the sets, the map entry, the folded entries, the
counter, and the engine IDLE or retiring a suspect source; or it fails and the target has failed (R87,
R88, R89). -/
def Obligations.SealMakesTheSwitch : Prop :=
  (∀ (s : State) (j : Job) (t : Phys) (g : Gen) (r : Request) (p : Phys) (c : TagContents)
    (ok : Bool),
    s.power.op ≠ .failed → s.reloc.engine = .sealing j t g →
    (s.dies.get (dieOf t)).inProgress = some r → r.requester = .relocation →
    r.op = .programTag p c →
    exec (.sealResult ok) s = .next (settle (sealEnds (s.medium.program s.draws r.op ok).2
      { endOperation (dieOf t) s with
        medium := (s.medium.program s.draws r.op ok).1
        draws := if ok then s.draws else s.draws + 1 }))) ∧
  ∀ (u : State) (j : Job) (t : Phys) (g : Gen), u.reloc.engine = .sealing j t g →
    let e := mapEntry u j.sector
    let switched (sets : State) (next : Engine) : State := countUp .relocationsDone 1 { sets with
      map := Table.store MapEntry.unbacked u.map j.sector.val
        { e with binding := some ⟨t, g⟩, suspect := false, reloc := .absent }
      wmb := { u.wmb with entries := u.wmb.entries.filter fun x => !x.isFolded }
      reloc := { u.reloc with engine := next } }
    (j.source = none → sealEnds true u = switched (moveTo .mapped t u) .idle) ∧
    (∀ old, j.source = some old →
      (e.suspect = false →
        sealEnds true u = switched (joinEraseQueue old (moveTo .mapped t u)) .idle) ∧
      (e.suspect = true → sealEnds true u =
        issue .relocation (.programTag old (.retire .program))
          (switched (joinRetired old .program (moveTo .mapped t u)) (.retiringSource j old)))) ∧
    sealEnds false u = issue .relocation (.programTag t (.retire .tag))
      (setEngine (.retiringTarget { j with failedTargets := j.failedTargets + 1 } t g .tag)
        (record (.programFail t none) u))

/-- The relocation engine's two RETIRE programs end: a suspect source's leaves the engine IDLE; a
failed target's retires the target and chooses another, waits in POWERDOWN, or after three targets
abandons the relocation (R88, R90, R96). -/
def Obligations.RelocationRetirementsEnd : Prop :=
  (∀ (s : State) (j : Job) (old : Phys) (r : Request) (p : Phys) (c : TagContents) (ok : Bool),
    s.power.op ≠ .failed → s.reloc.engine = .retiringSource j old →
    (s.dies.get (dieOf old)).inProgress = some r → r.requester = .relocation →
    r.op = .programTag p c →
    let ended : State := { endOperation (dieOf old) s with
      medium := (s.medium.program s.draws r.op ok).1
      draws := if ok then s.draws else s.draws + 1
      reloc := { s.reloc with engine := .idle } }
    exec (.sourceRetireResult ok) s = .next (settle
      (if (s.medium.program s.draws r.op ok).2 then ended
        else record (.programFail old none) ended))) ∧
  (∀ (s : State) (j : Job) (t : Phys) (g : Gen) (why : RetireReason) (r : Request) (p : Phys)
    (c : TagContents) (ok : Bool),
    s.power.op ≠ .failed → s.reloc.engine = .retiringTarget j t g why →
    (s.dies.get (dieOf t)).inProgress = some r → r.requester = .relocation →
    r.op = .programTag p c →
    exec (.targetRetireResult ok) s =
      .next (settle (targetRetireEnds (s.medium.program s.draws r.op ok).2
        { endOperation (dieOf t) s with
          medium := (s.medium.program s.draws r.op ok).1
          draws := if ok then s.draws else s.draws + 1 }))) ∧
  ∀ (u : State) (j : Job) (t : Phys) (g : Gen) (why : RetireReason) (pass pending : Bool)
    (old : Option Phys),
    u.reloc.engine = .retiringTarget j t g why →
    (mapEntry u j.sector).reloc = .inFlight old pending →
    let retired : State :=
      { joinRetired t why (if pass then u else record (.programFail t none) u) with
        map := Table.store MapEntry.unbacked u.map j.sector.val
          { mapEntry u j.sector with reloc := .inFlight none pending } }
    (3 ≤ j.failedTargets → targetRetireEnds pass u = abandon j none retired) ∧
    (j.failedTargets < 3 →
      (u.power.op = .powerdown → foldedList u = [] →
        targetRetireEnds pass u = setEngine (.awaitingSpare j) retired) ∧
      (u.power.op ≠ .powerdown ∨ foldedList u ≠ [] →
        targetRetireEnds pass u = chooseTarget j retired))

/-- A sector changes its set: at the tail of the erase queue with its known count, at the tail of the
retired list with SECTORS RETIRED counted, or in the spare pool at the place its new count and its
number give (R32, R34, R37, R38). -/
def Obligations.SectorsJoinTheirSets : Prop :=
  ∀ (p : Phys) (s : State),
    (joinEraseQueue p s = { s with acct := { s.acct with
      recs := Table.put s.acct.recs p.val ⟨.queuedForErase, knownCount s p⟩
      eraseQueue := s.acct.eraseQueue ++ [⟨p, knownCount s p⟩] } }) ∧
    (∀ why, joinRetired p why s = countUp .sectorsRetired 1 { s with acct := { s.acct with
      recs := Table.put s.acct.recs p.val ⟨.retired, knownCount s p⟩
      retired := s.acct.retired ++ [⟨p, why⟩] } }) ∧
    ∀ n,
      let t := joinPool p n s
      let before (a b : Phys) : Prop :=
        knownCount t a < knownCount t b ∨ (knownCount t a = knownCount t b ∧ a < b)
      t = { s with acct := { s.acct with
        recs := Table.put s.acct.recs p.val ⟨.spare, n⟩, pool := t.acct.pool } } ∧
      (∃ front back, s.acct.pool = front ++ back ∧ t.acct.pool = front ++ p :: back) ∧
      (p ∉ s.acct.pool → s.acct.pool.Pairwise before → t.acct.pool.Pairwise before)

/-! ### Erases and releases -/

/-- When an erase starts, on which sector, and what pending work holds it back (R36, R37, R100, R101).
The die's scheduler has reported it IDLE with no request waiting; where it has taken another request
since, the start waits behind that request, with the slot and the sector in ERASING (R102, R118). How
long the report stands is the model's choice (log 29); an ERASE_START whose conditions do not hold
changes nothing (log 4). -/
def Obligations.EraseStartsWhenAllowed : Prop :=
  ∀ (s : State) (d : DieId),
    let may := s.power.op = .running ∧ s.erase.slots.get d = .idle ∧
      (s.dies.get d).reported = true ∧ (pendingWork s d = false ∨ s.acct.pool.length < 4)
    let started (r : EraseRecord) : State := { s with
      acct := { s.acct with
        recs := Table.put s.acct.recs r.phys.val ⟨.erasing, knownCount s r.phys⟩
        eraseQueue := s.acct.eraseQueue.filter fun x => x.phys ≠ r.phys }
      erase := { s.erase with slots := s.erase.slots.set d (.erasing
        { phys := r.phys, count := r.count, urgent := decide (s.acct.pool.length < 4) }) } }
    let onDie (j : Job) (p : Phys) : Prop :=
      dieOf p = d ∨ ∃ source, j.source = some source ∧ dieOf source = d
    (¬ may ∨ (∀ r ∈ s.acct.eraseQueue, dieOf r.phys ≠ d) →
      exec (.eraseStart d) s = .next s) ∧
    (may → ∀ before r after, s.acct.eraseQueue = before ++ r :: after →
      (∀ x ∈ before, dieOf x.phys ≠ d) → dieOf r.phys = d →
      let start : Request := ⟨.eraseSlot, .eraseSector r.phys, s.now⟩
      exec (.eraseStart d) s =
        .next (settle (issue .eraseSlot (.eraseSector r.phys) (started r))) ∧
      ∃ t, exec (.eraseStart d) s = .next t ∧
        t.acct = (started r).acct ∧ t.erase = (started r).erase ∧
        ((s.dies.get d).state = .idle → (s.dies.get d).waiting = [] →
          (s.dies.get d).offline = false →
          t.dies.get d = { s.dies.get d with state := .erasing ⟨r.phys, 0, 0, 0⟩ }) ∧
        (∀ x time, (s.dies.get d).state = .reading x time ∨
            (s.dies.get d).state = .programming x time →
          t.dies.get d = { s.dies.get d with waiting := (s.dies.get d).waiting ++ [start] })) ∧
    ((∃ e ∈ s.wmb.entries, isCandidate s d e = true) ∨ s.lanes.get d ≠ .idle ∨
        (∃ r ∈ s.reloc.queue, ∃ b, (mapEntry s r.sector).binding = some b ∧ dieOf b.phys = d) ∨
        (s.reloc.queue ≠ [] ∧ ∃ p, s.acct.pool.head? = some p ∧ dieOf p = d) ∨
        (∃ j t, onDie j t ∧ ((∃ g pending, s.reloc.engine = .claiming j t g pending) ∨
          (∃ g pos, s.reloc.engine = .copying j t g pos) ∨
          (∃ g, s.reloc.engine = .sealing j t g) ∨
          (∃ g why, s.reloc.engine = .retiringTarget j t g why) ∨
          s.reloc.engine = .retiringSource j t)) ↔
      pendingWork s d = true)

/-- The erase ends: passed, it is counted, leaves the pause time-out list and its COUNT program is
issued; failed, ERASE FAIL is recorded and the RETIRE program issued. The die is IDLE, or stays
PAUSING or in the DIE RESET of an abandonment (log 18) (R103, R105, R113, R114, R128). -/
def Obligations.EraseEndsInCountOrRetire : Prop :=
  ∀ (s ended : State) (d : DieId) (i : SlotItems),
    s.power.op ≠ .failed → s.erase.slots.get d = .erasing i →
    (∃ run, (s.dies.get d).state = .erasing run ∧ ended = setDieState d .idle s) ∨
      (∃ p run abandon time, (s.dies.get d).state = .pausing p (some run) abandon time ∧
        ended = setDieState d (.pausing p none false time) s) ∨
      (∃ time, (s.dies.get d).state = .resetting .abandonment time false ∧ ended = s) →
    exec (.eraseSectorResult d true) s = .next (settle (issue .eraseSlot
      (.programTag i.phys (.count (nextCount i.count)))
      (countUp .erasesDone 1 { ended with
        medium := s.medium.eraseSector i.phys
        erase := { slots := s.erase.slots.set d (.counting i)
                   pauseList := s.erase.pauseList.filter fun x => x ≠ i.phys } }))) ∧
    exec (.eraseSectorResult d false) s = .next (settle (issue .eraseSlot
      (.programTag i.phys (.retire .erase))
      (record (.eraseFail i.phys) { ended with
        medium := s.medium.cutErase s.draws i.phys
        draws := s.draws + 1
        erase := { s.erase with slots := s.erase.slots.set d (.retiring i .erase) } }))) ∧
    (nextCount i.count).toNat = min 0xFFFFFF (i.count.toNat + 1)

/-- A slot's tag programs end: a COUNT that passes brings the sector to the spare pool and may clear
DEGRADED, one that fails leads to the RETIRE program, whose end retires the sector (R40, R104,
R106). -/
def Obligations.SlotProgramsEnd : Prop :=
  (∀ (s : State) (d : DieId) (r : Request) (p : Phys) (ok : Bool),
    s.power.op ≠ .failed → (s.dies.get d).inProgress = some r → r.requester = .eraseSlot →
    let pass := (s.medium.program s.draws r.op ok).2
    let ended : State := { endOperation d s with
      medium := (s.medium.program s.draws r.op ok).1
      draws := if ok then s.draws else s.draws + 1 }
    (∀ n, r.op = .programTag p (.count n) →
      exec (.countResult d ok) s = .next (settle (countEnds d pass ended))) ∧
    (∀ why, r.op = .programTag p (.retire why) →
      exec (.eraseRetireResult d ok) s = .next (settle (slotRetireEnds d pass ended)))) ∧
  (∀ (u : State) (d : DieId) (i : SlotItems), u.erase.slots.get d = .counting i →
    let joined : State := { joinPool i.phys (nextCount i.count) u with
      erase := { u.erase with slots := u.erase.slots.set d .idle } }
    (u.power.degraded = some .spares → 2 ≤ joined.acct.pool.length →
      countEnds d true u = { joined with power := { u.power with degraded := none } }) ∧
    (u.power.degraded ≠ some .spares ∨ joined.acct.pool.length < 2 →
      countEnds d true u = joined) ∧
    countEnds d false u = issue .eraseSlot (.programTag i.phys (.retire .tag))
      (record (.programFail i.phys none) { u with
        erase := { u.erase with slots := u.erase.slots.set d (.retiring i .tag) } })) ∧
  ∀ (u : State) (d : DieId) (i : SlotItems) (why : RetireReason) (pass : Bool),
    u.erase.slots.get d = .retiring i why →
    slotRetireEnds d pass u =
      { joinRetired i.phys why (if pass then u else record (.programFail i.phys none) u) with
        erase := { slots := u.erase.slots.set d .idle
                   pauseList := u.erase.pauseList.filter fun x => x ≠ i.phys } }

/-- A release ends: after a RELEASE program that passes the sector is UNBACKED and its physical sector
waits for an erase; after one that fails the physical sector is retired; SEALED entries then ask for
BACKING (R14, R30, R31). -/
def Obligations.ReleaseEndsUnbacked : Prop :=
  (∀ (s : State) (l : Sector) (p p' : Phys) (retiring ok : Bool) (r : Request),
    s.power.op ≠ .failed → s.release = some ⟨l, p, retiring⟩ →
    (s.dies.get (dieOf p)).inProgress = some r → r.requester = .release →
    let pass := (s.medium.program s.draws r.op ok).2
    let ended : State := { endOperation (dieOf p) s with
      medium := (s.medium.program s.draws r.op ok).1
      draws := if ok then s.draws else s.draws + 1 }
    (∀ g, r.op = .programTag p' (.release g) →
      exec (.releaseProgramResult ok) s = .next (settle (releaseMarkEnds pass ended))) ∧
    (∀ why, r.op = .programTag p' (.retire why) →
      exec (.releaseRetireResult ok) s = .next (settle (releaseRetireEnds pass ended)))) ∧
  ∀ (u : State) (l : Sector) (p : Phys) (retiring : Bool), u.release = some ⟨l, p, retiring⟩ →
    let released (sets : State) : State :=
      let done : State := { sets with
        map := Table.store MapEntry.unbacked u.map l.val
          { mapEntry u l with binding := none, releasing := false, suspect := false }
        release := none
        link := { sets.link with
          lastLong := u.link.lastLong.map fun x => { x with done := true } } }
      if ∃ e ∈ u.wmb.entries, e.isSealed = true ∧ e.sector = l then requestReloc l .backing done
      else done
    (retiring = false →
      releaseMarkEnds true u = released (joinEraseQueue p u) ∧
      releaseMarkEnds false u = issue .release (.programTag p (.retire .tag))
        { record (.programFail p none) u with release := some ⟨l, p, true⟩ }) ∧
    (retiring = true →
      releaseRetireEnds true u = released (joinRetired p .tag u) ∧
      releaseRetireEnds false u = released (joinRetired p .tag (record (.programFail p none) u)))

/-! ### The start-up scan -/

/-- The scanner classifies a returned tag by the first line of the table that applies, an unmatched SEAL
or RELEASE as garbled, keeps the better of two candidates for a sector, keeps the highest claim, and
reads the die's next physical sector or is done with the die. A tag with a valid RETIRE makes no GARBLED
TAG record (log 27) (R46, R156, R157, R158). -/
def Obligations.ScannerJudgesTags : Prop :=
  (∀ tag : List Byte,
    let j := judgeTag tag
    let sealing := ∃ l g, j .claim = .valid (.claim l g) ∧ j .sealing = .valid (.sealing g)
    let release := sealing ∧
      ∃ l g, j .claim = .valid (.claim l g) ∧ j .release = .valid (.release g)
    scanJudge tag .count = j .count ∧ scanJudge tag .claim = j .claim ∧
      scanJudge tag .retire = j .retire ∧
      ((∀ c, j .sealing ≠ .valid c) ∨ sealing → scanJudge tag .sealing = j .sealing) ∧
      ((∃ c, j .sealing = .valid c) → ¬ sealing → scanJudge tag .sealing = .garbled) ∧
      ((∀ c, j .release ≠ .valid c) ∨ release → scanJudge tag .release = j .release) ∧
      ((∃ c, j .release = .valid c) → ¬ release → scanJudge tag .release = .garbled)) ∧
  (∀ tag : List Byte,
    let f := scanJudge tag
    (∀ why, f .retire = .valid (.retire why) → classifyTag tag = ⟨.retired why, none, false⟩) ∧
    ((∀ c, f .retire ≠ .valid c) →
      ((∃ x, f x = .garbled) → classifyTag tag = ⟨.eraseQueue, none, true⟩) ∧
      ((∀ x, f x ≠ .garbled) →
        ((∀ x, f x = .blank) → classifyTag tag = ⟨.eraseQueue, none, false⟩) ∧
        (∀ c, f .count = .valid c → f .claim = .blank → f .sealing = .blank →
          f .release = .blank → classifyTag tag = ⟨.spare, none, false⟩) ∧
        (∀ c, f .claim = .valid c → f .sealing = .blank →
          classifyTag tag = ⟨.eraseQueue, none, false⟩) ∧
        (∀ l g m, f .claim = .valid (.claim l g) → f .sealing = .valid m →
          (∀ x, f .release = .valid x → classifyTag tag = ⟨.eraseQueue, none, false⟩) ∧
          (f .release = .blank → classifyTag tag = ⟨.candidate, some (l, g), false⟩)))) ∧
    (∀ n, f .count = .valid (.count n) → tagCount tag = n) ∧
    ((∀ c, f .count ≠ .valid c) → tagCount tag = 0)) ∧
  (∀ (sc : Scanner) (p : Phys) (tag : List Byte),
    let k := classifyTag tag
    let t := sc.judge p tag
    let classed (q : Phys) := Table.find t.classes q.val
    t = { sc with judged := sc.judged + 1, classes := t.classes, candidates := t.candidates
                  highest := t.highest } ∧
    (∀ g, (judgeTag tag .claim).claimGen = some g →
      (sc.highest = none → t.highest = some g) ∧
      (∀ h, sc.highest = some h → t.highest = some (if h < g then g else h))) ∧
    ((judgeTag tag .claim).claimGen = none → t.highest = sc.highest) ∧
    (k.candidate = none → t.candidates = sc.candidates ∧
      classed p = some ⟨k.kind, tagCount tag⟩ ∧
      ∀ q, q ≠ p → classed q = Table.find sc.classes q.val) ∧
    ∀ l g, k.candidate = some (l, g) →
      (∀ l', l' ≠ l → Table.find t.candidates l'.val = Table.find sc.candidates l'.val) ∧
      (Table.find sc.candidates l.val = none →
        Table.find t.candidates l.val = some ⟨p, g⟩ ∧ classed p = some ⟨k.kind, tagCount tag⟩ ∧
        ∀ q, q ≠ p → classed q = Table.find sc.classes q.val) ∧
      ∀ old, Table.find sc.candidates l.val = some old → old.phys ≠ p →
        (∀ q, q ≠ p → q ≠ old.phys → classed q = Table.find sc.classes q.val) ∧
        (old.gen < g ∨ (old.gen = g ∧ p < old.phys) →
          Table.find t.candidates l.val = some ⟨p, g⟩ ∧
          classed p = some ⟨k.kind, tagCount tag⟩ ∧
          classed old.phys = some ⟨.eraseQueue, sc.countOf old.phys⟩) ∧
        (g < old.gen ∨ (old.gen = g ∧ old.phys < p) →
          Table.find t.candidates l.val = some old ∧
          classed p = some ⟨.eraseQueue, tagCount tag⟩ ∧
          classed old.phys = Table.find sc.classes old.phys.val)) ∧
  ∀ (s : State) (d : DieId) (r : Request) (p : Phys),
    s.power.op ≠ .failed → (s.dies.get d).inProgress = some r → r.requester = .scanner →
    r.op = .readTag p →
    let tag := s.medium.tag p
    let ended := endOperation d s
    let told := if (classifyTag tag).garbled then record (.garbledTag p) ended else ended
    (∀ q : Phys, q.val = p.val + 1 → p.val ≠ 527 → exec (.readTagResult d) s =
      .next (settle (issue .scanner (.readTag q) { told with
        scan := { s.scan.judge p tag with progress := s.scan.progress.set d (.reading q) } }))) ∧
    (p.val = 527 ∨ p.val = 1055 → exec (.readTagResult d) s =
      .next (settle { told with
        scan := { s.scan.judge p tag with progress := s.scan.progress.set d .done } }))

/-- The scan ends: the map, the sets and the generation counter are written, the state becomes RUNNING
or POWERDOWN, and a held cycle is handled as arriving. SCAN_END before that changes nothing (log 4)
(R159, R54, R140). -/
def Obligations.ScanEndWritesTheMap : Prop :=
  ∀ s : State,
    (s.power.op ≠ .starting ∨ s.scan.progress.die0 ≠ .done ∨ s.scan.progress.die1 ≠ .done →
      exec .scanEnd s = .next s) ∧
    (s.power.op = .starting → s.scan.progress.die0 = .done → s.scan.progress.die1 = .done →
      StartingQuiet s → TablesCanonical s → (∀ c ∈ s.scan.classes, c.1 < 1056) →
      ∃ u : State,
        ((∀ h, s.host.port ≠ .holding h) → exec .scanEnd s = .next (settle u)) ∧
        (∀ h, s.host.port = .holding h → exec .scanEnd s = .next (settle (handleArrival h u))) ∧
        u = { s with
          power := { s.power with op := if s.power.pfail then .powerdown else .running }
          map := u.map, acct := u.acct, reloc := { s.reloc with generation := u.reloc.generation }
          scan := Scanner.atReset } ∧
        (s.scan.highest = none → u.reloc.generation = some 1) ∧
        (∀ h, s.scan.highest = some h → u.reloc.generation = some (h + 1)) ∧
        (∀ l : Sector,
          (Table.find s.scan.candidates l.val = none → mapEntry u l = MapEntry.unbacked) ∧
          (∀ c, Table.find s.scan.candidates l.val = some c →
            mapEntry u l = { MapEntry.unbacked with binding := some ⟨c.phys, c.gen⟩ })) ∧
        (∀ p : Phys,
          let c := Table.find s.scan.classes p.val
          membershipOf u p = c.map (·.kind.membership) ∧
          (p ∈ u.acct.pool ↔ ∃ n, c = some ⟨.spare, n⟩) ∧
          (∀ why, ⟨p, why⟩ ∈ u.acct.retired ↔ ∃ n, c = some ⟨.retired why, n⟩) ∧
          ∀ n, (c.map (·.count) = some n → knownCount u p = n) ∧
            (⟨p, n⟩ ∈ u.acct.eraseQueue ↔ c = some ⟨.eraseQueue, n⟩)) ∧
        u.acct.pool.Pairwise (fun a b =>
          knownCount u a < knownCount u b ∨ (knownCount u a = knownCount u b ∧ a < b)) ∧
        (u.acct.eraseQueue.map (·.phys)).Pairwise (· < ·) ∧
        (u.acct.retired.map (·.phys)).Pairwise (· < ·))

/-! ### The die schedulers -/

/-- An erase pauses for a host read once its progress reaches 400 µs, the time that is lacking
passing first (log 6), and fewer than 48 pauses are taken; HELD counts the pause, NOT ERASING after
the erase's own result frees the die. NOT ERASING while the erase goes on, and HELD after its result,
bring only the schedulers' choice (log 4) (R122 to R125). -/
def Obligations.ErasePausesForHostRead : Prop :=
  ∀ (s : State) (d : DieId), s.power.op ≠ .failed →
    (∀ run, (s.dies.get d).state = .erasing run →
      exec (.progressIntervalReached d) s = .next (settle (elapse (400 - run.progress) s)) ∧
      ((s.dies.get d).waiting.any Request.isHostRead = true → run.pauses < 48 →
        (s.dies.get d).offline = false →
        ∃ t, exec (.progressIntervalReached d) s = .next t ∧
          (t.dies.get d).state = .pausing run.phys (some { run with
            progress := max run.progress 400
            erasing := run.erasing + (400 - run.progress) }) false 0)) ∧
    (∀ p run abandon time, (s.dies.get d).state = .pausing p (some run) abandon time →
      exec (.pauseAnswer d true) s = .next (settle (countUp .pauses 1
        (setDieState d (.held { run with pauses := run.pauses + 1 } abandon) s))) ∧
      exec (.pauseAnswer d false) s = .next (settle s)) ∧
    (∀ p abandon time, (s.dies.get d).state = .pausing p none abandon time →
      exec (.pauseAnswer d false) s = .next (settle (setDieState d .idle s)) ∧
      exec (.pauseAnswer d true) s = .next (settle s))

/-- A time-out issues DIE RESET, which cuts what the die was doing (its bytes at the moment of the
reset, log 18); the time that is lacking passes first (log 6). A pause time-out is recorded. A DIE RESET
that is not answered marks the die offline with a record and brings FAILED, in which the port completes
what it holds, a cycle held in STARTING without a lane counted nowhere (log 9); where no DIE RESET is
awaited, DIE_RESET_TIMEOUT changes nothing (log 4) (R113, R119 to R121, R127, R129, R141, R165). -/
def Obligations.TimeOutsResetTheDie : Prop :=
  ∀ (s : State) (d : DieId),
    (∀ cause,
      let cut := cutInProgress d s
      dieReset d cause s = setDie d { s.dies.get d with
        state := .resetting cause 0 false, reported := false } cut ∧
      (∀ r time, (s.dies.get d).state = .programming r time → cut =
        { s with medium := s.medium.cutProgram s.draws r.op, draws := s.draws + 1 }) ∧
      (∀ run, (s.dies.get d).state.eraseRun = some run → cut =
        { s with medium := s.medium.cutErase s.draws run.phys, draws := s.draws + 1 }) ∧
      ((∀ r time, (s.dies.get d).state ≠ .programming r time) →
        (s.dies.get d).state.eraseRun = none → cut = s)) ∧
    (s.power.op ≠ .failed →
      (∀ r time, (s.dies.get d).state = .reading r time ∨
          (s.dies.get d).state = .programming r time →
        exec (.operationTimeout d) s = .next (dieReset d (.timeout r.requester r.op false)
          (elapse ((if r.op.isRead then 20 else 1000) - time) s))) ∧
      (∀ run r abandon time, (s.dies.get d).state = .heldReading run r abandon time →
        exec (.operationTimeout d) s = .next (dieReset d (.timeout r.requester r.op true)
          (elapse ((if r.op.isRead then 20 else 1000) - time) s))) ∧
      (∀ run, (s.dies.get d).state = .erasing run →
        exec (.operationTimeout d) s = .next (dieReset d
          (.timeout .eraseSlot (.eraseSector run.phys) false)
          (elapse (5000000 - run.erasing) s))) ∧
      (∀ p run abandon time, (s.dies.get d).state = .pausing p run abandon time →
        exec (.pauseTimeout d) s = .next (dieReset d .pauseTimeout
          (record (.pauseTimeout d p) (elapse (100 - time) s))))) ∧
    (∀ cause time, (s.dies.get d).state = .resetting cause time false →
      (s.dies.get d).offline = false →
      let told := record (.dieOffline d) (elapse (1000 - time) s)
      let u := setDie d { told.dies.get d with offline := true } told
      let v : State := { u with power := { u.power with op := .failed } }
      (s.power.op = .failed → exec (.dieResetTimeout d) s = .next u) ∧
      (s.power.op ≠ .failed →
        (heldCycle s = none → (∀ ask, s.host.port ≠ .reading (.abandoned none) ask) →
          exec (.dieResetTimeout d) s = .next v) ∧
        (∀ ask, s.host.port = .reading (.abandoned none) ask →
          exec (.dieResetTimeout d) s = .next (setPort .idle v)) ∧
        (∀ h, heldCycle s = some h → h.cycle.low = true ∨ h.cycle.high = true →
          (∀ h', s.host.port = .writing h' → h'.cycle.kind ≠ .read) →
          (∀ h' ask, s.host.port = .reading (.cycle h') ask → h'.cycle.kind = .read) →
          (h.cycle.kind = .read → exec (.dieResetTimeout d) s =
            .next (countUp .hostReads 1 (setPort (.completed h.cycle (some 0xFFFF)) v))) ∧
          (h.cycle.kind ≠ .read → exec (.dieResetTimeout d) s =
            .next (countUp .refusedWrites 1 (setPort (.completed h.cycle none) v)))) ∧
        (∀ h, s.host.port = .holding h ∨
            (∃ ask, s.host.port = .reading (.abandoned (some h)) ask) →
          h.cycle.low = false → h.cycle.high = false →
          exec (.dieResetTimeout d) s = .next (setPort
            (.completed h.cycle (if h.cycle.kind = .read then some 0xFFFF else none)) v)))) ∧
    ((∀ cause time, (s.dies.get d).state ≠ .resetting cause time false) ∨
        (s.dies.get d).offline = true →
      exec (.dieResetTimeout d) s = .next s)

/-- READY after a time-out frees the die and delivers TIMEOUT to the requester, which acts as at a
FAIL or asks again, and then reports a held erase that the reset ended; after a pause time-out or an
abandonment it reports to the erase slot. In FAILED it is disregarded, and that it came is kept (log
19) (R63, R86, R104 to R108, R120, R127, R128, R129, R135, R142, R156). -/
def Obligations.ReadyReportsWhatWasCut : Prop :=
  ∀ (s : State) (d : DieId) (cause : ResetCause) (time : Nat),
    (s.dies.get d).state = .resetting cause time false → (s.dies.get d).offline = false →
    let u := setDieState d .idle s
    let disregarded := setDieState d (.resetting cause time true) s
    let rejoined (i : SlotItems) (x : State) : State := setSlot d .idle (joinEraseQueue i.phys x)
    (∀ who op held, cause = .timeout who op held →
      (s.power.op = .failed → exec (.dieReadyAfterTimeout d) s = .next disregarded) ∧
      (s.power.op ≠ .failed →
        let v := deliverTimeout d who op u
        ((held = false ∨ ∀ i, v.erase.slots.get d ≠ .erasing i) →
          exec (.dieReadyAfterTimeout d) s = .next (settle v)) ∧
        (∀ i, held = true → v.erase.slots.get d = .erasing i →
          exec (.dieReadyAfterTimeout d) s = .next (settle (rejoined i v))) ∧
        (∀ p pos, op = .readLine p pos →
          (∀ h ask, who = .hostPort → s.host.port = .reading (.cycle h) ask →
            v = issue .hostPort (.readLine ask.phys ask.pos) u) ∧
          (∀ ask, who = .hostPort → s.host.port = .reading (.abandoned none) ask →
            v = setPort .idle u) ∧
          (∀ id q, who = .lane → s.lanes.get d = .reading id q →
            v = { u with
              wmb := { s.wmb with entries := s.wmb.entries.map fun x =>
                if x.openOrder = id then Entry.returned x else x }
              lanes := s.lanes.set d .idle }) ∧
          (who = .relocation → v = issue .relocation (.readLine p pos) u)) ∧
        (∀ p, op = .readTag p → who = .scanner → v = issue .scanner (.readTag p) u) ∧
        (∀ p pos data, op = .programLine p pos data →
          (who = .lane → v = laneProgramFails d u) ∧
          (who = .relocation → v = copyProgramEnds false u)) ∧
        (∀ p i, op = .eraseSector p → who = .eraseSlot → s.erase.slots.get d = .erasing i →
          v = issue .eraseSlot (.programTag i.phys (.retire .erase))
            (setSlot d (.retiring i .erase) (record (.eraseFail i.phys) u))) ∧
        (∀ p c, op = .programTag p c →
          (∀ n, c = .count n → who = .eraseSlot → v = countEnds d false u) ∧
          (∀ l g, c = .claim l g → who = .relocation → v = claimEnds false u) ∧
          (∀ g, c = .sealing g → who = .relocation → v = sealEnds false u) ∧
          (∀ g, c = .release g → who = .release → v = releaseMarkEnds false u) ∧
          (∀ why, c = .retire why →
            (who = .eraseSlot → v = slotRetireEnds d false u) ∧
            (who = .release → v = releaseRetireEnds false u) ∧
            (∀ j t g x, who = .relocation → s.reloc.engine = .retiringTarget j t g x →
              v = targetRetireEnds false u) ∧
            (∀ j old, who = .relocation → s.reloc.engine = .retiringSource j old →
              v = setEngine .idle (record (.programFail old none) u)))))) ∧
    (cause = .pauseTimeout →
      (s.power.op = .failed → exec (.dieReadyAfterPauseTimeout d) s = .next disregarded) ∧
      (s.power.op ≠ .failed →
        ((∀ i, s.erase.slots.get d ≠ .erasing i) →
          exec (.dieReadyAfterPauseTimeout d) s = .next (settle u)) ∧
        (∀ i, s.erase.slots.get d = .erasing i →
          (i.phys ∉ s.erase.pauseList → exec (.dieReadyAfterPauseTimeout d) s =
            .next (settle (rejoined i { u with
              erase := { s.erase with pauseList := s.erase.pauseList ++ [i.phys] } }))) ∧
          (i.phys ∈ s.erase.pauseList → exec (.dieReadyAfterPauseTimeout d) s =
            .next (settle (issue .eraseSlot (.programTag i.phys (.retire .erase))
              (setSlot d (.retiring i .erase) u))))))) ∧
    (cause = .abandonment →
      (s.power.op = .failed → exec (.dieReadyAfterAbandon d) s = .next disregarded) ∧
      (s.power.op ≠ .failed →
        ((∀ i, s.erase.slots.get d ≠ .erasing i) →
          exec (.dieReadyAfterAbandon d) s = .next (settle u)) ∧
        (∀ i, s.erase.slots.get d = .erasing i →
          exec (.dieReadyAfterAbandon d) s = .next (settle (rejoined i u)))))

/-! ### The management link and the pins -/

/-- The five reports are answered from the state as it stands and change nothing but the response
(R42, R151, R168, R172, R176), with the bytes of section 11.9: the status block, the region entry, the
map entry, the sector record, the counters, and the fault record that READ FAULT reports (R98, R111,
R130, R144, R174). Absent fields are hex FF in every byte (log 16); a read held in READING has the held
cycle code hex 00 (log 30). -/
def Obligations.ReportsChangeNothing : Prop :=
  let b1 (n : Nat) : List Byte := [BitVec.ofNat 8 n]
  let be2 (n : Nat) : List Byte := [BitVec.ofNat 8 (n / 256), BitVec.ofNat 8 n]
  let be3 (n : Nat) : List Byte := BitVec.ofNat 8 (n / 65536) :: be2 n
  let be4 (n : Nat) : List Byte := BitVec.ofNat 8 (n / 16777216) :: be3 n
  let ff (n : Nat) : List Byte := List.replicate n 0xFF#8
  let bit (b : Bool) (v : Nat) : Nat := if b then v else 0
  (∀ s : State,
    let answer (code : ResponseCode) (command : Byte) (data : List Byte) : State :=
      let frame := [code.byte, command, BitVec.ofNat 8 data.length] ++ data
      { s with link := { s.link with response := withCheck frame } }
    exec .status s = .next (answer .ok 0x01 (statusBlock s)) ∧
    (s.power.op ≠ .starting →
      exec .readCounters s = .next (answer .ok 0x20 s.link.counters.bytes)) ∧
    (s.power.op = .running ∨ s.power.op = .powerdown →
      (∀ index : Byte,
        (∀ i : Fin 16, index.toNat = i.val → exec (.readRegion index) s =
          .next (answer .ok 0x10 (regionAt s i).bytes)) ∧
        (16 ≤ index.toNat → exec (.readRegion index) s = .next (answer .invalid 0x10 []))) ∧
      (∀ n : BitVec 16,
        (∀ l : Sector, n.toNat = l.val →
          exec (.mapQuery n) s = .next (answer .ok 0x30 (mapBytes s l))) ∧
        (1024 ≤ n.toNat → exec (.mapQuery n) s = .next (answer .invalid 0x30 []))) ∧
      (∀ n : BitVec 16,
        (∀ p : Phys, n.toNat = p.val →
          exec (.sectorQuery n) s = .next (answer .ok 0x31 (physSectorBytes s p))) ∧
        (1056 ≤ n.toNat → exec (.sectorQuery n) s = .next (answer .invalid 0x31 [])))) ∧
    (statusBlock s).length = 76) ∧
  -- the codes
  ([ResponseCode.ok, .accepted, .done, .empty, .busy, .invalid, .frozen, .starting, .refused,
      .check].map ResponseCode.byte =
    [0x00, 0x01, 0x02, 0x03, 0x10, 0x11, 0x12, 0x13, 0x14, 0x15]) ∧
  ([OpState.starting, .running, .powerdown, .failed].map OpState.code = [0, 1, 2, 3] ∧
    [none, some .spares, some .generation].map degradedCode = [0, 1, 2] ∧
    [Mode.normal, .clearOnly, .readOnly, .noAccess].map Mode.code = [0, 1, 2, 3] ∧
    [Membership.mapped, .target, .spare, .queuedForErase, .erasing, .retired].map Membership.code =
      [0, 1, 2, 3, 4, 5] ∧
    [RelocReason.backing, .overwrite, .failure].map RelocReason.code = [1, 2, 3] ∧
    [RetireReason.program, .erase, .tag].map RetireReason.code = [0x01, 0x02, 0x03] ∧
    [Requester.hostPort, .lane, .relocation, .eraseSlot, .release, .scanner].map Requester.code =
      [1, 2, 3, 4, 5, 6] ∧
    [DieId.die0, .die1].map DieId.number = [0, 1]) ∧
  (∀ (p : Phys) (pos : Pos) (data : LineData) (c : TagContents),
    [DieOp.readLine p pos, .readTag p, .programLine p pos data, .programTag p c,
      .eraseSector p].map DieOp.code = [1, 2, 3, 4, 5]) ∧
  -- the status block
  (∀ s : State,
    let members (m : Membership) : List Byte :=
      be2 (s.acct.recs.countP fun c => c.2.membership == m)
    let lane (d : DieId) : Byte → Prop := fun b =>
      (s.lanes.get d = .idle → b = 0x00) ∧ (∀ id p, s.lanes.get d = .reading id p → b = 0x01) ∧
      ∀ id p medium target, s.lanes.get d = .programming id p medium target → b = 0x02
    ∃ lane0 lane1 : Byte, lane .die0 lane0 ∧ lane .die1 lane1 ∧
      statusBlock s = b1 s.power.op.code ++ b1 (degradedCode s.power.degraded) ++
        b1 (bit s.power.pfail 1 + bit s.link.faultAttention 2 + bit s.link.degradedAttention 4 +
          bit s.dies.die0.offline 8 + bit s.dies.die1.offline 16 + bit (commandInProgress s) 32) ++
        be2 s.scan.judged ++ b1 s.link.faults.length ++ [s.link.overflow] ++
        LastLong.statusBytes s.link.lastLong ++ b1 (s.wmb.entries.countP Entry.isOpen) ++
        b1 (s.wmb.entries.countP Entry.isSealed) ++ b1 (s.wmb.entries.countP Entry.isCommitting) ++
        b1 s.wmb.entries.length ++ members .mapped ++ members .target ++ members .spare ++
        members .queuedForErase ++ members .erasing ++ members .retired ++ relocationStatus s ++
        [lane0, lane1] ++ s.erase.slots.die0.statusBytes ++ s.erase.slots.die1.statusBytes ++
        be2 s.erase.pauseList.length ++ s.dies.die0.statusBytes ++ s.dies.die1.statusBytes ++
        b1 s.host.port.code ++ b1 (heldCycleCode s) ++ be2 s.wmb.commitDelay.toNat ++
        be2 s.host.threshold.toNat) ∧
  (∀ done : Bool, LastLong.statusBytes none = 0x00 :: ff 3 ∧
    LastLong.statusBytes (some ⟨.flush, done⟩) = [0x01, BitVec.ofNat 8 (bit done 1)] ++ ff 2 ∧
    ∀ l, LastLong.statusBytes (some ⟨.release l, done⟩) =
      [0x02, BitVec.ofNat 8 (bit done 1)] ++ be2 l.val) ∧
  (∀ (s : State) (j : Job) (t : Phys) (g : Gen) (pos : Pos) (pending : Bool) (why : RetireReason),
    let job := b1 j.reason.code ++ be2 j.sector.val
    let failed := b1 j.failedTargets
    ∃ tail, (s.reloc.generation = none → tail = be2 s.reloc.queue.length ++ ff 4) ∧
      (∀ g, s.reloc.generation = some g → tail = be2 s.reloc.queue.length ++ be4 g.toNat) ∧
      (s.reloc.engine = .idle → relocationStatus s = b1 0 ++ ff 8 ++ tail) ∧
      (s.reloc.engine = .awaitingSpare j →
        relocationStatus s = b1 1 ++ job ++ ff 2 ++ failed ++ ff 2 ++ tail) ∧
      (s.reloc.engine = .claiming j t g pending →
        relocationStatus s = b1 2 ++ job ++ be2 t.val ++ failed ++ ff 2 ++ tail) ∧
      (s.reloc.engine = .copying j t g pos →
        relocationStatus s = b1 3 ++ job ++ be2 t.val ++ failed ++ be2 pos.val ++ tail) ∧
      (s.reloc.engine = .sealing j t g →
        relocationStatus s = b1 4 ++ job ++ be2 t.val ++ failed ++ ff 2 ++ tail) ∧
      (s.reloc.engine = .retiringSource j t →
        relocationStatus s = b1 4 ++ job ++ ff 2 ++ failed ++ ff 2 ++ tail) ∧
      (s.reloc.engine = .retiringTarget j t g why →
        relocationStatus s = b1 5 ++ job ++ be2 t.val ++ failed ++ ff 2 ++ tail)) ∧
  (∀ (i : SlotItems) (why : RetireReason),
    let items := b1 (bit i.urgent 1) ++ be2 i.phys.val
    Slot.idle.statusBytes = b1 0 ++ ff 3 ∧ (Slot.erasing i).statusBytes = b1 1 ++ items ∧
      (Slot.counting i).statusBytes = b1 2 ++ items ∧
      (Slot.retiring i why).statusBytes = b1 3 ++ items) ∧
  (∀ (ws : List Request) (offline reported : Bool) (r : Request) (run : EraseRun) (p : Phys)
    (abandon answered : Bool) (cause : ResetCause) (time : Nat),
    let bytes (st : DieState) : List Byte := (Die.mk st ws offline reported).statusBytes
    let waiting := b1 (ws.countP Request.isHostRead) ++ b1 (ws.countP Request.isInternal) ++
      b1 (ws.countP Request.isEraseStart)
    let asked := b1 r.op.code ++ b1 r.requester.code
    let erase := b1 run.pauses ++ b1 (bit (decide (400 ≤ run.progress)) 1)
    bytes .idle = [0x00, 0x00, 0x00] ++ waiting ++ ff 2 ∧
      bytes (.reading r time) = b1 1 ++ asked ++ waiting ++ ff 2 ∧
      bytes (.programming r time) = b1 2 ++ asked ++ waiting ++ ff 2 ∧
      bytes (.erasing run) = [0x03, 0x05, 0x04] ++ waiting ++ erase ∧
      bytes (.pausing p (some run) abandon time) = [0x04, 0x06, 0x00] ++ waiting ++ erase ∧
      bytes (.pausing p none abandon time) = [0x04, 0x06, 0x00] ++ waiting ++ ff 2 ∧
      bytes (.held run abandon) = [0x05, 0x05, 0x04] ++ waiting ++ erase ∧
      bytes (.heldReading run r abandon time) = b1 6 ++ asked ++ waiting ++ erase ∧
      bytes (.resetting cause time answered) = [0x07, 0x07, 0x00] ++ waiting ++ ff 2) ∧
  (∀ (s : State) (h : HeldCycle) (c : HostCycle) (w : Option HostWord) (ask : ReadAsk),
    let codes (port : Port) (state held : Nat) : Prop :=
      s.host.port = port → s.host.port.code = state ∧ heldCycleCode s = held
    codes .idle 0 0 ∧ codes (.completed c w) 0 0 ∧ codes (.inReset c) 0 0 ∧
      codes (.reading (.cycle h) ask) 1 0 ∧ codes (.reading (.abandoned none) ask) 1 0 ∧
      codes (.reading (.abandoned (some h)) ask) 1 4 ∧
      (s.power.op = .powerdown → codes (.writing h) 2 2) ∧
      (s.power.op ≠ .powerdown → codes (.writing h) 2 1) ∧ codes (.holding h) 3 3) ∧
  -- the data of READ REGION, MAP QUERY, SECTOR QUERY, READ COUNTERS
  (∀ r : Region, r.bytes = be2 r.first.val ++ be2 r.last.val ++ b1 r.mode.code ++
    b1 (bit r.enabled 1) ++ b1 (bit r.frozen 1)) ∧
  (∀ (s : State) (l : Sector), ∃ (bound field : List Byte) (pending : Bool),
    let e := mapEntry s l
    mapBytes s l = bound ++ field ++ b1 (bit e.releasing 1 + bit e.suspect 2 + bit pending 4) ∧
      (e.binding = none → bound = 0x00 :: ff 6) ∧
      (∀ b, e.binding = some b → bound = 0x01 :: (be2 b.phys.val ++ be4 b.gen.toNat)) ∧
      (e.reloc = .absent → field = 0x00 :: ff 3 ∧ pending = false) ∧
      (∀ r, e.reloc = .queued r → field = 0x01 :: (b1 r.code ++ ff 2) ∧ pending = false) ∧
      ∀ t b, e.reloc = .inFlight t b → pending = b ∧ ∃ reason target : List Byte,
        field = 0x02 :: (reason ++ target) ∧ (t = none → target = ff 2) ∧
        (∀ p, t = some p → target = be2 p.val) ∧
        ∀ j, s.reloc.engine.beforeSwitch = some j → j.sector = l → reason = b1 j.reason.code) ∧
  (∀ (s : State) (p : Phys), ∃ count why place : List Byte,
    physSectorBytes s p = count ++ why ++ place ∧
      (Table.find s.acct.recs p.val = none → count = ff 4) ∧
      (∀ m n, Table.find s.acct.recs p.val = some ⟨m, n⟩ → count = b1 m.code ++ be3 n.toNat) ∧
      ((∀ x ∈ s.acct.retired, x.phys ≠ p) → why = ff 1) ∧
      (∀ before x after, s.acct.retired = before ++ x :: after → (∀ y ∈ before, y.phys ≠ p) →
        x.phys = p → why = [x.reason.code]) ∧
      (∀ before after, s.acct.pool = before ++ p :: after → p ∉ before →
        place = be2 before.length) ∧
      (p ∉ s.acct.pool →
        (∀ before x after, s.acct.eraseQueue = before ++ x :: after →
          (∀ y ∈ before, y.phys ≠ p) → x.phys = p → place = be2 before.length) ∧
        ((∀ x ∈ s.acct.eraseQueue, x.phys ≠ p) → place = ff 2))) ∧
  (∀ c : Counters, c.bytes = be4 c.hostReads.toNat ++ be4 c.hostWrites.toNat ++
    be4 c.longStalls.toNat ++ be4 c.refusedWrites.toNat ++ be4 c.linesCommitted.toNat ++
    be4 c.relocationsDone.toNat ++ be4 c.linesLost.toNat ++ be4 c.erasesDone.toNat ++
    be4 c.pauses.toNat ++ be4 c.sectorsRetired.toNat) ∧
  -- the fault record
  ∀ (q : BitVec 16) (n : LineNo) (i : Fin 16) (l : Sector) (p : Phys) (d : DieId) (count : Nat)
    (why : DegradedReason),
    let is (body : RecordBody) (kind present : Byte) (fields : List Byte) : Prop :=
      FaultRecord.bytes ⟨q, body⟩ = kind :: (be2 q.toNat ++ present :: fields)
    is (.regionWrite n i) 0x01 0x09 (be3 n.val ++ ff 4 ++ b1 i.val ++ ff 4) ∧
      is (.regionRead n i) 0x02 0x09 (be3 n.val ++ ff 4 ++ b1 i.val ++ ff 4) ∧
      is (.degradedWrite n) 0x03 0x01 (be3 n.val ++ ff 9) ∧
      is (.clearOnlyLoss n i) 0x04 0x09 (be3 n.val ++ ff 4 ++ b1 i.val ++ ff 4) ∧
      is (.relocationLoss l count) 0x05 0x22 (ff 3 ++ be2 l.val ++ ff 4 ++ be2 count ++ ff 1) ∧
      is (.programFail p none) 0x06 0x04 (ff 5 ++ be2 p.val ++ ff 5) ∧
      is (.programFail p (some n)) 0x06 0x05 (be3 n.val ++ ff 2 ++ be2 p.val ++ ff 5) ∧
      is (.eraseFail p) 0x07 0x04 (ff 5 ++ be2 p.val ++ ff 5) ∧
      is (.pauseTimeout d p) 0x08 0x14 (ff 5 ++ be2 p.val ++ ff 1 ++ b1 (DieId.number d) ++ ff 3) ∧
      is (.garbledTag p) 0x09 0x04 (ff 5 ++ be2 p.val ++ ff 5) ∧
      is (.releaseDiscard l count) 0x0A 0x22 (ff 3 ++ be2 l.val ++ ff 4 ++ be2 count ++ ff 1) ∧
      is (.degradedEntered count why) 0x0B 0x60
        (ff 9 ++ be2 count ++ b1 (degradedCode (some why))) ∧
      is (.dieOffline d) 0x0C 0x10 (ff 8 ++ b1 (DieId.number d) ++ ff 3)

/-- WRITE REGION and FREEZE REGION change one entry of the table, or are refused INVALID or FROZEN
with the table unchanged (R148, R150). -/
def Obligations.RegionCommandsAct : Prop :=
  ∀ (s : State) (index : Byte) (first last : BitVec 16) (mode enabled : Byte),
    s.power.op = .running ∨ s.power.op = .powerdown →
    let write := exec (.writeRegion index first last mode enabled) s
    (16 ≤ index.toNat ∨ 16384 ≤ first.toNat ∨ 16384 ≤ last.toNat ∨ last.toNat < first.toNat ∨
        4 ≤ mode.toNat ∨ 2 ≤ enabled.toNat →
      write = .next (respond .invalid 0x11 [] s)) ∧
    (16 ≤ index.toNat → exec (.freezeRegion index) s = .next (respond .invalid 0x12 [] s)) ∧
    ∀ i : Fin 16, index.toNat = i.val →
      (∃ t, exec (.freezeRegion index) s = .next (respond .ok 0x12 [] t) ∧
        t = { s with regions := t.regions } ∧
        regionAt t i = { regionAt s i with frozen := true } ∧
        ∀ x, x ≠ i → regionAt t x = regionAt s x) ∧
      ∀ (f l : Page) (m : Mode), first.toNat = f.val → last.toNat = l.val → f ≤ l →
        mode.toNat = m.code → enabled.toNat < 2 →
        ((regionAt s i).frozen = true → write = .next (respond .frozen 0x11 [] s)) ∧
        ((regionAt s i).frozen = false → ∃ t, write = .next (respond .ok 0x11 [] t) ∧
          t = { s with regions := t.regions } ∧
          regionAt t i = ⟨f, l, m, decide (enabled.toNat = 1), false⟩ ∧
          ∀ x, x ≠ i → regionAt t x = regionAt s x)

/-- CLEAR COUNTERS, SET TIMING and EVENT ENABLE set what they name and are answered. A new delay seals,
in ascending open order, every OPEN entry whose age has reached it, with what the sealing asks of the
map and the relocation queue, and a younger entry stays OPEN; a new threshold counts a held cycle whose
stall has reached it and that is not yet counted; the port keeps its cycle (R2, R7, R8, R143, R173,
R176). -/
def Obligations.SettingCommandsAct : Prop :=
  ∀ s : State, s.power.op = .running ∨ s.power.op = .powerdown →
    (exec .clearCounters s = .next (respond .ok 0x21 [] { s with
      link := { s.link with counters := ⟨0, 0, 0, 0, 0, 0, 0, 0, 0, 0⟩ } })) ∧
    (∀ delay threshold : BitVec 16,
      let set : State := { s with
        wmb := { s.wmb with commitDelay := delay }
        host := { s.host with threshold := threshold } }
      (threshold = 0 →
        exec (.setTiming delay threshold) s = .next (respond .invalid 0x40 [] s)) ∧
      (threshold ≠ 0 →
        ((∀ e ∈ s.wmb.entries, ∀ age, e.stage = .opened age → age < delay.toNat) →
          (∀ h, heldCycle s = some h → h.counted = true ∨ h.stall < threshold.toNat) →
          exec (.setTiming delay threshold) s = .next (respond .ok 0x40 [] set)) ∧
        (WmbOrderly s.wmb →
          let late (e : Entry) : Prop := ∃ age, e.stage = .opened age ∧ delay.toNat ≤ age
          ∃ (t : State) (sealed : Nat),
            exec (.setTiming delay threshold) s = .next (respond .ok 0x40 [] t) ∧
            t = { set with
              wmb := { set.wmb with
                entries := sealedOverdue delay.toNat s.wmb.sealCounter s.wmb.entries
                sealCounter := s.wmb.sealCounter + sealed }
              map := t.map, reloc := t.reloc, host := t.host, link := t.link } ∧
            t.wmb.entries.countP Entry.isOpen + sealed = s.wmb.entries.countP Entry.isOpen ∧
            asksBacking late s t ∧
            (heldCycle s = none → t.host = set.host ∧ t.link = s.link) ∧
            (∀ h, heldCycle s = some h →
              let due := h.counted = false ∧ threshold.toNat ≤ h.stall
              let marked : HeldCycle := { h with counted := h.counted || decide due }
              (∀ ask, s.host.port = .reading (.cycle h) ask →
                t.host = { set.host with port := .reading (.cycle marked) ask }) ∧
              (∀ ask, s.host.port = .reading (.abandoned (some h)) ask →
                t.host = { set.host with port := .reading (.abandoned (some marked)) ask }) ∧
              (s.host.port = .writing h → t.host = { set.host with port := .writing marked }) ∧
              (s.host.port = .holding h → t.host = { set.host with port := .holding marked }) ∧
              t.link = if due then (countUp .longStalls 1 s).link else s.link)))) ∧
    ∀ enables : Byte,
      (4 ≤ enables.toNat →
        exec (.eventEnable enables) s = .next (respond .invalid 0x41 [] s)) ∧
      (enables.toNat < 4 → exec (.eventEnable enables) s = .next (respond .ok 0x41 [enables] { s with
        link := { s.link with
          faultAttention := enables.getLsbD 0, degradedAttention := enables.getLsbD 1 } }))

/-- READ FAULT removes the oldest record and reports it with the overflow count, which becomes 0; on
an empty queue it is answered EMPTY with the count and 16 bytes of hex FF for the absent record (log
16). A record that comes first on an empty queue is the one removed; one that comes second joins after
(R175, section 11.9). -/
def Obligations.ReadFaultRemovesOldest : Prop :=
  ∀ s : State, s.power.op ≠ .starting →
    (∀ r rest, s.link.faults = r :: rest → exec .readFault s =
      .next (respond .ok 0x22 (s.link.overflow :: r.bytes) { s with
        link := { s.link with faults := rest, overflow := 0 } })) ∧
    (s.link.faults = [] →
      exec .readFault s = .next (respond .empty 0x22
        (s.link.overflow :: List.replicate 16 0xFF) { s with link := { s.link with overflow := 0 } }) ∧
      ∀ b, ∃ t, exec .readFault (record b s) = .next t ∧ t.link.faults = [] ∧
        t.link.response = responseFrame .ok 0x22
          (s.link.overflow :: FaultRecord.bytes ⟨s.link.sequence, b⟩)) ∧
    (s.link.faults.length ≤ 16 → ∀ b, ∃ t, exec .readFault s = .next t ∧
      (record b t).link.faults = s.link.faults.tail ++ [⟨s.link.sequence, b⟩])

/-- RELEASE SECTOR in its order: BUSY, the discard with its record, the relocation queue, DONE for an
UNBACKED sector, the RELEASE program for a BACKED one (R29, R30, R168, R171). -/
def Obligations.ReleaseSectorActsInOrder : Prop :=
  ∀ (s : State) (n : BitVec 16), s.power.op = .running ∨ s.power.op = .powerdown →
    (commandInProgress s = true →
      exec (.releaseSector n) s = .next (respond .busy 0x32 [] s)) ∧
    (commandInProgress s = false →
      (1024 ≤ n.toNat → exec (.releaseSector n) s = .next (respond .invalid 0x32 [] s)) ∧
      ∀ l : Sector, n.toNat = l.val →
        let e := mapEntry s l
        let busy := (∃ x ∈ s.wmb.entries, x.sector = l ∧ x.isCommitting = true) ∨
          ∃ t pending, e.reloc = .inFlight t pending
        let lost := (s.wmb.entries.filter fun x => x.sector == l).length
        let counted := countUp .linesLost lost { s with
          wmb := { s.wmb with entries := s.wmb.entries.filter fun x => x.sector != l } }
        let told := if lost = 0 then counted else record (.releaseDiscard l lost) counted
        let left (e' : MapEntry) (command : LastLong) : State := { told with
          map := Table.store MapEntry.unbacked s.map l.val e'
          reloc := { s.reloc with queue :=
            if e.reloc = .absent then s.reloc.queue
            else s.reloc.queue.filter fun r => r.sector ≠ l }
          link := { told.link with lastLong := some command } }
        (busy → exec (.releaseSector n) s = .next (respond .busy 0x32 [] s)) ∧
        (¬ busy → TablesCanonical s →
          (e.binding = none → exec (.releaseSector n) s = .next (respond .done 0x32 []
            (left { e with reloc := .absent } ⟨.release l, true⟩))) ∧
          (∀ b, e.binding = some b → exec (.releaseSector n) s =
            .next (settle (issue .release (.programTag b.phys (.release b.gen))
              { respond .accepted 0x32 []
                  (left { e with reloc := .absent, releasing := true } ⟨.release l, false⟩) with
                release := some ⟨l, b.phys, false⟩ })))))

/-- A frame that does not stand is answered CHECK with command code hex FF, or INVALID, and a command
that the operating state refuses is answered STARTING or REFUSED; nothing else changes (R167, R168). -/
def Obligations.RefusedCommandsOnlyAnswer : Prop :=
  ∀ s : State,
    (∀ bytes : List Byte,
      (bytes.length < 3 ∨ (∃ code n rest, bytes = code :: n :: rest ∧ rest.length ≠ n.toNat + 1) ∨
          bytes.getLast? ≠ some (crc8 bytes.dropLast) →
        exec (.badCommandFrame bytes) s = .next (respond .check 0xFF [] s)) ∧
      (∀ code params, bytes = withCheck (code :: BitVec.ofNat 8 params.length :: params) →
        params.length < 256 → parseCommand code params = none →
        exec (.badCommandFrame bytes) s = .next (respond .invalid code [] s))) ∧
    (∀ c code params, commandParts c = some (code, params) → c ≠ .status →
      (s.power.op = .starting → exec c s = .next (respond .starting code [] s)) ∧
      (s.power.op = .failed → c ≠ .readFault → c ≠ .readCounters →
        exec c s = .next (respond .refused code [] s)) ∧
      (commandInProgress s = true → s.power.op = .running ∨ s.power.op = .powerdown →
        c = .flush ∨ (∃ n, c = .releaseSector n) →
        exec c s = .next (respond .busy code [] s)))

/-- The region lookup answers with the enabled entry of lowest index that contains the page, and NORMAL
where none does (R146). DRAINED and ATTN# are driven from the state (R164, R177). A read transaction at
the address hex 4D returns the response buffer as it stands and hex FF beyond its end (log 28) (R167). -/
def Obligations.LookupAndPinsFollowState : Prop :=
  (∀ (s : State) (p : Page),
    let contains (i : Fin 16) : Prop :=
      (regionAt s i).enabled = true ∧ (regionAt s i).first ≤ p ∧ p ≤ (regionAt s i).last
    (∀ i, contains i → (∀ x, x < i → ¬ contains x) →
      governing s p = some i ∧ modeAt s p = (regionAt s i).mode) ∧
    ((∀ i, ¬ contains i) → governing s p = none ∧ modeAt s p = .normal)) ∧
  (∀ s : State,
    (drainedPin s = true ↔ (s.power.op = .running ∨ s.power.op = .powerdown) ∧
      s.wmb.entries = [] ∧ s.reloc.engine = .idle ∧ s.reloc.queue = []) ∧
    (attn s = true ↔ (s.link.faults ≠ [] ∧ s.link.faultAttention = true) ∨
      (s.power.degraded ≠ none ∧ s.link.degradedAttention = true) ∨ s.power.op = .failed)) ∧
  (∀ (s : State) (n : Nat), ∃ bytes : List Byte, linkRead 0x4D n s = some bytes ∧
    bytes.length = n ∧ ∀ i (h : i < bytes.length), bytes[i] = s.link.response.getD i 0xFF) ∧
  ∀ (s : State) (n : Nat) (address : BitVec 7), address ≠ 0x4D → linkRead address n s = none
end

