-- ==== Sys2Proof/Laws/State.lean ====
section
/-!
SUPPORT. One lemma for each field of State under each named update.
-/

namespace Sys2Proof.Machine

open Sys2Proof

@[simp] theorem setPower_pending (s : State) (x : Power) : (s.setPower x).pending = s.pending := rfl
@[simp] theorem setPower_power (s : State) (x : Power) : (s.setPower x).power = x := rfl
@[simp] theorem setPower_wmb (s : State) (x : Power) : (s.setPower x).wmb = s.wmb := rfl
@[simp] theorem setPower_map (s : State) (x : Power) : (s.setPower x).map = s.map := rfl
@[simp] theorem setPower_acct (s : State) (x : Power) : (s.setPower x).acct = s.acct := rfl
@[simp] theorem setPower_lanes (s : State) (x : Power) : (s.setPower x).lanes = s.lanes := rfl
@[simp] theorem setPower_reloc (s : State) (x : Power) : (s.setPower x).reloc = s.reloc := rfl
@[simp] theorem setPower_erase (s : State) (x : Power) : (s.setPower x).erase = s.erase := rfl
@[simp] theorem setPower_dies (s : State) (x : Power) : (s.setPower x).dies = s.dies := rfl
@[simp] theorem setPower_host (s : State) (x : Power) : (s.setPower x).host = s.host := rfl
@[simp] theorem setPower_regions (s : State) (x : Power) : (s.setPower x).regions = s.regions := rfl
@[simp] theorem setPower_scan (s : State) (x : Power) : (s.setPower x).scan = s.scan := rfl
@[simp] theorem setPower_release (s : State) (x : Power) : (s.setPower x).release = s.release := rfl
@[simp] theorem setPower_link (s : State) (x : Power) : (s.setPower x).link = s.link := rfl
@[simp] theorem setPower_medium (s : State) (x : Power) : (s.setPower x).medium = s.medium := rfl
@[simp] theorem setPower_now (s : State) (x : Power) : (s.setPower x).now = s.now := rfl
@[simp] theorem setPower_draws (s : State) (x : Power) : (s.setPower x).draws = s.draws := rfl

@[simp] theorem setWmb_pending (s : State) (x : Wmb) : (s.setWmb x).pending = s.pending := rfl
@[simp] theorem setWmb_power (s : State) (x : Wmb) : (s.setWmb x).power = s.power := rfl
@[simp] theorem setWmb_wmb (s : State) (x : Wmb) : (s.setWmb x).wmb = x := rfl
@[simp] theorem setWmb_map (s : State) (x : Wmb) : (s.setWmb x).map = s.map := rfl
@[simp] theorem setWmb_acct (s : State) (x : Wmb) : (s.setWmb x).acct = s.acct := rfl
@[simp] theorem setWmb_lanes (s : State) (x : Wmb) : (s.setWmb x).lanes = s.lanes := rfl
@[simp] theorem setWmb_reloc (s : State) (x : Wmb) : (s.setWmb x).reloc = s.reloc := rfl
@[simp] theorem setWmb_erase (s : State) (x : Wmb) : (s.setWmb x).erase = s.erase := rfl
@[simp] theorem setWmb_dies (s : State) (x : Wmb) : (s.setWmb x).dies = s.dies := rfl
@[simp] theorem setWmb_host (s : State) (x : Wmb) : (s.setWmb x).host = s.host := rfl
@[simp] theorem setWmb_regions (s : State) (x : Wmb) : (s.setWmb x).regions = s.regions := rfl
@[simp] theorem setWmb_scan (s : State) (x : Wmb) : (s.setWmb x).scan = s.scan := rfl
@[simp] theorem setWmb_release (s : State) (x : Wmb) : (s.setWmb x).release = s.release := rfl
@[simp] theorem setWmb_link (s : State) (x : Wmb) : (s.setWmb x).link = s.link := rfl
@[simp] theorem setWmb_medium (s : State) (x : Wmb) : (s.setWmb x).medium = s.medium := rfl
@[simp] theorem setWmb_now (s : State) (x : Wmb) : (s.setWmb x).now = s.now := rfl
@[simp] theorem setWmb_draws (s : State) (x : Wmb) : (s.setWmb x).draws = s.draws := rfl

@[simp] theorem setMap_pending (s : State) (x : Table MapEntry) : (s.setMap x).pending = s.pending := rfl
@[simp] theorem setMap_power (s : State) (x : Table MapEntry) : (s.setMap x).power = s.power := rfl
@[simp] theorem setMap_wmb (s : State) (x : Table MapEntry) : (s.setMap x).wmb = s.wmb := rfl
@[simp] theorem setMap_map (s : State) (x : Table MapEntry) : (s.setMap x).map = x := rfl
@[simp] theorem setMap_acct (s : State) (x : Table MapEntry) : (s.setMap x).acct = s.acct := rfl
@[simp] theorem setMap_lanes (s : State) (x : Table MapEntry) : (s.setMap x).lanes = s.lanes := rfl
@[simp] theorem setMap_reloc (s : State) (x : Table MapEntry) : (s.setMap x).reloc = s.reloc := rfl
@[simp] theorem setMap_erase (s : State) (x : Table MapEntry) : (s.setMap x).erase = s.erase := rfl
@[simp] theorem setMap_dies (s : State) (x : Table MapEntry) : (s.setMap x).dies = s.dies := rfl
@[simp] theorem setMap_host (s : State) (x : Table MapEntry) : (s.setMap x).host = s.host := rfl
@[simp] theorem setMap_regions (s : State) (x : Table MapEntry) : (s.setMap x).regions = s.regions := rfl
@[simp] theorem setMap_scan (s : State) (x : Table MapEntry) : (s.setMap x).scan = s.scan := rfl
@[simp] theorem setMap_release (s : State) (x : Table MapEntry) : (s.setMap x).release = s.release := rfl
@[simp] theorem setMap_link (s : State) (x : Table MapEntry) : (s.setMap x).link = s.link := rfl
@[simp] theorem setMap_medium (s : State) (x : Table MapEntry) : (s.setMap x).medium = s.medium := rfl
@[simp] theorem setMap_now (s : State) (x : Table MapEntry) : (s.setMap x).now = s.now := rfl
@[simp] theorem setMap_draws (s : State) (x : Table MapEntry) : (s.setMap x).draws = s.draws := rfl

@[simp] theorem setAcct_pending (s : State) (x : Accounting) : (s.setAcct x).pending = s.pending := rfl
@[simp] theorem setAcct_power (s : State) (x : Accounting) : (s.setAcct x).power = s.power := rfl
@[simp] theorem setAcct_wmb (s : State) (x : Accounting) : (s.setAcct x).wmb = s.wmb := rfl
@[simp] theorem setAcct_map (s : State) (x : Accounting) : (s.setAcct x).map = s.map := rfl
@[simp] theorem setAcct_acct (s : State) (x : Accounting) : (s.setAcct x).acct = x := rfl
@[simp] theorem setAcct_lanes (s : State) (x : Accounting) : (s.setAcct x).lanes = s.lanes := rfl
@[simp] theorem setAcct_reloc (s : State) (x : Accounting) : (s.setAcct x).reloc = s.reloc := rfl
@[simp] theorem setAcct_erase (s : State) (x : Accounting) : (s.setAcct x).erase = s.erase := rfl
@[simp] theorem setAcct_dies (s : State) (x : Accounting) : (s.setAcct x).dies = s.dies := rfl
@[simp] theorem setAcct_host (s : State) (x : Accounting) : (s.setAcct x).host = s.host := rfl
@[simp] theorem setAcct_regions (s : State) (x : Accounting) : (s.setAcct x).regions = s.regions := rfl
@[simp] theorem setAcct_scan (s : State) (x : Accounting) : (s.setAcct x).scan = s.scan := rfl
@[simp] theorem setAcct_release (s : State) (x : Accounting) : (s.setAcct x).release = s.release := rfl
@[simp] theorem setAcct_link (s : State) (x : Accounting) : (s.setAcct x).link = s.link := rfl
@[simp] theorem setAcct_medium (s : State) (x : Accounting) : (s.setAcct x).medium = s.medium := rfl
@[simp] theorem setAcct_now (s : State) (x : Accounting) : (s.setAcct x).now = s.now := rfl
@[simp] theorem setAcct_draws (s : State) (x : Accounting) : (s.setAcct x).draws = s.draws := rfl

@[simp] theorem setLanes_pending (s : State) (x : PerDie Lane) : (s.setLanes x).pending = s.pending := rfl
@[simp] theorem setLanes_power (s : State) (x : PerDie Lane) : (s.setLanes x).power = s.power := rfl
@[simp] theorem setLanes_wmb (s : State) (x : PerDie Lane) : (s.setLanes x).wmb = s.wmb := rfl
@[simp] theorem setLanes_map (s : State) (x : PerDie Lane) : (s.setLanes x).map = s.map := rfl
@[simp] theorem setLanes_acct (s : State) (x : PerDie Lane) : (s.setLanes x).acct = s.acct := rfl
@[simp] theorem setLanes_lanes (s : State) (x : PerDie Lane) : (s.setLanes x).lanes = x := rfl
@[simp] theorem setLanes_reloc (s : State) (x : PerDie Lane) : (s.setLanes x).reloc = s.reloc := rfl
@[simp] theorem setLanes_erase (s : State) (x : PerDie Lane) : (s.setLanes x).erase = s.erase := rfl
@[simp] theorem setLanes_dies (s : State) (x : PerDie Lane) : (s.setLanes x).dies = s.dies := rfl
@[simp] theorem setLanes_host (s : State) (x : PerDie Lane) : (s.setLanes x).host = s.host := rfl
@[simp] theorem setLanes_regions (s : State) (x : PerDie Lane) : (s.setLanes x).regions = s.regions := rfl
@[simp] theorem setLanes_scan (s : State) (x : PerDie Lane) : (s.setLanes x).scan = s.scan := rfl
@[simp] theorem setLanes_release (s : State) (x : PerDie Lane) : (s.setLanes x).release = s.release := rfl
@[simp] theorem setLanes_link (s : State) (x : PerDie Lane) : (s.setLanes x).link = s.link := rfl
@[simp] theorem setLanes_medium (s : State) (x : PerDie Lane) : (s.setLanes x).medium = s.medium := rfl
@[simp] theorem setLanes_now (s : State) (x : PerDie Lane) : (s.setLanes x).now = s.now := rfl
@[simp] theorem setLanes_draws (s : State) (x : PerDie Lane) : (s.setLanes x).draws = s.draws := rfl

@[simp] theorem setReloc_pending (s : State) (x : Relocation) : (s.setReloc x).pending = s.pending := rfl
@[simp] theorem setReloc_power (s : State) (x : Relocation) : (s.setReloc x).power = s.power := rfl
@[simp] theorem setReloc_wmb (s : State) (x : Relocation) : (s.setReloc x).wmb = s.wmb := rfl
@[simp] theorem setReloc_map (s : State) (x : Relocation) : (s.setReloc x).map = s.map := rfl
@[simp] theorem setReloc_acct (s : State) (x : Relocation) : (s.setReloc x).acct = s.acct := rfl
@[simp] theorem setReloc_lanes (s : State) (x : Relocation) : (s.setReloc x).lanes = s.lanes := rfl
@[simp] theorem setReloc_reloc (s : State) (x : Relocation) : (s.setReloc x).reloc = x := rfl
@[simp] theorem setReloc_erase (s : State) (x : Relocation) : (s.setReloc x).erase = s.erase := rfl
@[simp] theorem setReloc_dies (s : State) (x : Relocation) : (s.setReloc x).dies = s.dies := rfl
@[simp] theorem setReloc_host (s : State) (x : Relocation) : (s.setReloc x).host = s.host := rfl
@[simp] theorem setReloc_regions (s : State) (x : Relocation) : (s.setReloc x).regions = s.regions := rfl
@[simp] theorem setReloc_scan (s : State) (x : Relocation) : (s.setReloc x).scan = s.scan := rfl
@[simp] theorem setReloc_release (s : State) (x : Relocation) : (s.setReloc x).release = s.release := rfl
@[simp] theorem setReloc_link (s : State) (x : Relocation) : (s.setReloc x).link = s.link := rfl
@[simp] theorem setReloc_medium (s : State) (x : Relocation) : (s.setReloc x).medium = s.medium := rfl
@[simp] theorem setReloc_now (s : State) (x : Relocation) : (s.setReloc x).now = s.now := rfl
@[simp] theorem setReloc_draws (s : State) (x : Relocation) : (s.setReloc x).draws = s.draws := rfl

@[simp] theorem setErase_pending (s : State) (x : EraseEngine) : (s.setErase x).pending = s.pending := rfl
@[simp] theorem setErase_power (s : State) (x : EraseEngine) : (s.setErase x).power = s.power := rfl
@[simp] theorem setErase_wmb (s : State) (x : EraseEngine) : (s.setErase x).wmb = s.wmb := rfl
@[simp] theorem setErase_map (s : State) (x : EraseEngine) : (s.setErase x).map = s.map := rfl
@[simp] theorem setErase_acct (s : State) (x : EraseEngine) : (s.setErase x).acct = s.acct := rfl
@[simp] theorem setErase_lanes (s : State) (x : EraseEngine) : (s.setErase x).lanes = s.lanes := rfl
@[simp] theorem setErase_reloc (s : State) (x : EraseEngine) : (s.setErase x).reloc = s.reloc := rfl
@[simp] theorem setErase_erase (s : State) (x : EraseEngine) : (s.setErase x).erase = x := rfl
@[simp] theorem setErase_dies (s : State) (x : EraseEngine) : (s.setErase x).dies = s.dies := rfl
@[simp] theorem setErase_host (s : State) (x : EraseEngine) : (s.setErase x).host = s.host := rfl
@[simp] theorem setErase_regions (s : State) (x : EraseEngine) : (s.setErase x).regions = s.regions := rfl
@[simp] theorem setErase_scan (s : State) (x : EraseEngine) : (s.setErase x).scan = s.scan := rfl
@[simp] theorem setErase_release (s : State) (x : EraseEngine) : (s.setErase x).release = s.release := rfl
@[simp] theorem setErase_link (s : State) (x : EraseEngine) : (s.setErase x).link = s.link := rfl
@[simp] theorem setErase_medium (s : State) (x : EraseEngine) : (s.setErase x).medium = s.medium := rfl
@[simp] theorem setErase_now (s : State) (x : EraseEngine) : (s.setErase x).now = s.now := rfl
@[simp] theorem setErase_draws (s : State) (x : EraseEngine) : (s.setErase x).draws = s.draws := rfl

@[simp] theorem setDies_pending (s : State) (x : PerDie Die) : (s.setDies x).pending = s.pending := rfl
@[simp] theorem setDies_power (s : State) (x : PerDie Die) : (s.setDies x).power = s.power := rfl
@[simp] theorem setDies_wmb (s : State) (x : PerDie Die) : (s.setDies x).wmb = s.wmb := rfl
@[simp] theorem setDies_map (s : State) (x : PerDie Die) : (s.setDies x).map = s.map := rfl
@[simp] theorem setDies_acct (s : State) (x : PerDie Die) : (s.setDies x).acct = s.acct := rfl
@[simp] theorem setDies_lanes (s : State) (x : PerDie Die) : (s.setDies x).lanes = s.lanes := rfl
@[simp] theorem setDies_reloc (s : State) (x : PerDie Die) : (s.setDies x).reloc = s.reloc := rfl
@[simp] theorem setDies_erase (s : State) (x : PerDie Die) : (s.setDies x).erase = s.erase := rfl
@[simp] theorem setDies_dies (s : State) (x : PerDie Die) : (s.setDies x).dies = x := rfl
@[simp] theorem setDies_host (s : State) (x : PerDie Die) : (s.setDies x).host = s.host := rfl
@[simp] theorem setDies_regions (s : State) (x : PerDie Die) : (s.setDies x).regions = s.regions := rfl
@[simp] theorem setDies_scan (s : State) (x : PerDie Die) : (s.setDies x).scan = s.scan := rfl
@[simp] theorem setDies_release (s : State) (x : PerDie Die) : (s.setDies x).release = s.release := rfl
@[simp] theorem setDies_link (s : State) (x : PerDie Die) : (s.setDies x).link = s.link := rfl
@[simp] theorem setDies_medium (s : State) (x : PerDie Die) : (s.setDies x).medium = s.medium := rfl
@[simp] theorem setDies_now (s : State) (x : PerDie Die) : (s.setDies x).now = s.now := rfl
@[simp] theorem setDies_draws (s : State) (x : PerDie Die) : (s.setDies x).draws = s.draws := rfl

@[simp] theorem setHost_pending (s : State) (x : HostPort) : (s.setHost x).pending = s.pending := rfl
@[simp] theorem setHost_power (s : State) (x : HostPort) : (s.setHost x).power = s.power := rfl
@[simp] theorem setHost_wmb (s : State) (x : HostPort) : (s.setHost x).wmb = s.wmb := rfl
@[simp] theorem setHost_map (s : State) (x : HostPort) : (s.setHost x).map = s.map := rfl
@[simp] theorem setHost_acct (s : State) (x : HostPort) : (s.setHost x).acct = s.acct := rfl
@[simp] theorem setHost_lanes (s : State) (x : HostPort) : (s.setHost x).lanes = s.lanes := rfl
@[simp] theorem setHost_reloc (s : State) (x : HostPort) : (s.setHost x).reloc = s.reloc := rfl
@[simp] theorem setHost_erase (s : State) (x : HostPort) : (s.setHost x).erase = s.erase := rfl
@[simp] theorem setHost_dies (s : State) (x : HostPort) : (s.setHost x).dies = s.dies := rfl
@[simp] theorem setHost_host (s : State) (x : HostPort) : (s.setHost x).host = x := rfl
@[simp] theorem setHost_regions (s : State) (x : HostPort) : (s.setHost x).regions = s.regions := rfl
@[simp] theorem setHost_scan (s : State) (x : HostPort) : (s.setHost x).scan = s.scan := rfl
@[simp] theorem setHost_release (s : State) (x : HostPort) : (s.setHost x).release = s.release := rfl
@[simp] theorem setHost_link (s : State) (x : HostPort) : (s.setHost x).link = s.link := rfl
@[simp] theorem setHost_medium (s : State) (x : HostPort) : (s.setHost x).medium = s.medium := rfl
@[simp] theorem setHost_now (s : State) (x : HostPort) : (s.setHost x).now = s.now := rfl
@[simp] theorem setHost_draws (s : State) (x : HostPort) : (s.setHost x).draws = s.draws := rfl

@[simp] theorem setRegions_pending (s : State) (x : Table Region) : (s.setRegions x).pending = s.pending := rfl
@[simp] theorem setRegions_power (s : State) (x : Table Region) : (s.setRegions x).power = s.power := rfl
@[simp] theorem setRegions_wmb (s : State) (x : Table Region) : (s.setRegions x).wmb = s.wmb := rfl
@[simp] theorem setRegions_map (s : State) (x : Table Region) : (s.setRegions x).map = s.map := rfl
@[simp] theorem setRegions_acct (s : State) (x : Table Region) : (s.setRegions x).acct = s.acct := rfl
@[simp] theorem setRegions_lanes (s : State) (x : Table Region) : (s.setRegions x).lanes = s.lanes := rfl
@[simp] theorem setRegions_reloc (s : State) (x : Table Region) : (s.setRegions x).reloc = s.reloc := rfl
@[simp] theorem setRegions_erase (s : State) (x : Table Region) : (s.setRegions x).erase = s.erase := rfl
@[simp] theorem setRegions_dies (s : State) (x : Table Region) : (s.setRegions x).dies = s.dies := rfl
@[simp] theorem setRegions_host (s : State) (x : Table Region) : (s.setRegions x).host = s.host := rfl
@[simp] theorem setRegions_regions (s : State) (x : Table Region) : (s.setRegions x).regions = x := rfl
@[simp] theorem setRegions_scan (s : State) (x : Table Region) : (s.setRegions x).scan = s.scan := rfl
@[simp] theorem setRegions_release (s : State) (x : Table Region) : (s.setRegions x).release = s.release := rfl
@[simp] theorem setRegions_link (s : State) (x : Table Region) : (s.setRegions x).link = s.link := rfl
@[simp] theorem setRegions_medium (s : State) (x : Table Region) : (s.setRegions x).medium = s.medium := rfl
@[simp] theorem setRegions_now (s : State) (x : Table Region) : (s.setRegions x).now = s.now := rfl
@[simp] theorem setRegions_draws (s : State) (x : Table Region) : (s.setRegions x).draws = s.draws := rfl

@[simp] theorem setScan_pending (s : State) (x : Scanner) : (s.setScan x).pending = s.pending := rfl
@[simp] theorem setScan_power (s : State) (x : Scanner) : (s.setScan x).power = s.power := rfl
@[simp] theorem setScan_wmb (s : State) (x : Scanner) : (s.setScan x).wmb = s.wmb := rfl
@[simp] theorem setScan_map (s : State) (x : Scanner) : (s.setScan x).map = s.map := rfl
@[simp] theorem setScan_acct (s : State) (x : Scanner) : (s.setScan x).acct = s.acct := rfl
@[simp] theorem setScan_lanes (s : State) (x : Scanner) : (s.setScan x).lanes = s.lanes := rfl
@[simp] theorem setScan_reloc (s : State) (x : Scanner) : (s.setScan x).reloc = s.reloc := rfl
@[simp] theorem setScan_erase (s : State) (x : Scanner) : (s.setScan x).erase = s.erase := rfl
@[simp] theorem setScan_dies (s : State) (x : Scanner) : (s.setScan x).dies = s.dies := rfl
@[simp] theorem setScan_host (s : State) (x : Scanner) : (s.setScan x).host = s.host := rfl
@[simp] theorem setScan_regions (s : State) (x : Scanner) : (s.setScan x).regions = s.regions := rfl
@[simp] theorem setScan_scan (s : State) (x : Scanner) : (s.setScan x).scan = x := rfl
@[simp] theorem setScan_release (s : State) (x : Scanner) : (s.setScan x).release = s.release := rfl
@[simp] theorem setScan_link (s : State) (x : Scanner) : (s.setScan x).link = s.link := rfl
@[simp] theorem setScan_medium (s : State) (x : Scanner) : (s.setScan x).medium = s.medium := rfl
@[simp] theorem setScan_now (s : State) (x : Scanner) : (s.setScan x).now = s.now := rfl
@[simp] theorem setScan_draws (s : State) (x : Scanner) : (s.setScan x).draws = s.draws := rfl

@[simp] theorem setRelease_pending (s : State) (x : Option Release) : (s.setRelease x).pending = s.pending := rfl
@[simp] theorem setRelease_power (s : State) (x : Option Release) : (s.setRelease x).power = s.power := rfl
@[simp] theorem setRelease_wmb (s : State) (x : Option Release) : (s.setRelease x).wmb = s.wmb := rfl
@[simp] theorem setRelease_map (s : State) (x : Option Release) : (s.setRelease x).map = s.map := rfl
@[simp] theorem setRelease_acct (s : State) (x : Option Release) : (s.setRelease x).acct = s.acct := rfl
@[simp] theorem setRelease_lanes (s : State) (x : Option Release) : (s.setRelease x).lanes = s.lanes := rfl
@[simp] theorem setRelease_reloc (s : State) (x : Option Release) : (s.setRelease x).reloc = s.reloc := rfl
@[simp] theorem setRelease_erase (s : State) (x : Option Release) : (s.setRelease x).erase = s.erase := rfl
@[simp] theorem setRelease_dies (s : State) (x : Option Release) : (s.setRelease x).dies = s.dies := rfl
@[simp] theorem setRelease_host (s : State) (x : Option Release) : (s.setRelease x).host = s.host := rfl
@[simp] theorem setRelease_regions (s : State) (x : Option Release) : (s.setRelease x).regions = s.regions := rfl
@[simp] theorem setRelease_scan (s : State) (x : Option Release) : (s.setRelease x).scan = s.scan := rfl
@[simp] theorem setRelease_release (s : State) (x : Option Release) : (s.setRelease x).release = x := rfl
@[simp] theorem setRelease_link (s : State) (x : Option Release) : (s.setRelease x).link = s.link := rfl
@[simp] theorem setRelease_medium (s : State) (x : Option Release) : (s.setRelease x).medium = s.medium := rfl
@[simp] theorem setRelease_now (s : State) (x : Option Release) : (s.setRelease x).now = s.now := rfl
@[simp] theorem setRelease_draws (s : State) (x : Option Release) : (s.setRelease x).draws = s.draws := rfl

@[simp] theorem setLink_pending (s : State) (x : Link) : (s.setLink x).pending = s.pending := rfl
@[simp] theorem setLink_power (s : State) (x : Link) : (s.setLink x).power = s.power := rfl
@[simp] theorem setLink_wmb (s : State) (x : Link) : (s.setLink x).wmb = s.wmb := rfl
@[simp] theorem setLink_map (s : State) (x : Link) : (s.setLink x).map = s.map := rfl
@[simp] theorem setLink_acct (s : State) (x : Link) : (s.setLink x).acct = s.acct := rfl
@[simp] theorem setLink_lanes (s : State) (x : Link) : (s.setLink x).lanes = s.lanes := rfl
@[simp] theorem setLink_reloc (s : State) (x : Link) : (s.setLink x).reloc = s.reloc := rfl
@[simp] theorem setLink_erase (s : State) (x : Link) : (s.setLink x).erase = s.erase := rfl
@[simp] theorem setLink_dies (s : State) (x : Link) : (s.setLink x).dies = s.dies := rfl
@[simp] theorem setLink_host (s : State) (x : Link) : (s.setLink x).host = s.host := rfl
@[simp] theorem setLink_regions (s : State) (x : Link) : (s.setLink x).regions = s.regions := rfl
@[simp] theorem setLink_scan (s : State) (x : Link) : (s.setLink x).scan = s.scan := rfl
@[simp] theorem setLink_release (s : State) (x : Link) : (s.setLink x).release = s.release := rfl
@[simp] theorem setLink_link (s : State) (x : Link) : (s.setLink x).link = x := rfl
@[simp] theorem setLink_medium (s : State) (x : Link) : (s.setLink x).medium = s.medium := rfl
@[simp] theorem setLink_now (s : State) (x : Link) : (s.setLink x).now = s.now := rfl
@[simp] theorem setLink_draws (s : State) (x : Link) : (s.setLink x).draws = s.draws := rfl

@[simp] theorem setMedium_pending (s : State) (x : Memory) : (s.setMedium x).pending = s.pending := rfl
@[simp] theorem setMedium_power (s : State) (x : Memory) : (s.setMedium x).power = s.power := rfl
@[simp] theorem setMedium_wmb (s : State) (x : Memory) : (s.setMedium x).wmb = s.wmb := rfl
@[simp] theorem setMedium_map (s : State) (x : Memory) : (s.setMedium x).map = s.map := rfl
@[simp] theorem setMedium_acct (s : State) (x : Memory) : (s.setMedium x).acct = s.acct := rfl
@[simp] theorem setMedium_lanes (s : State) (x : Memory) : (s.setMedium x).lanes = s.lanes := rfl
@[simp] theorem setMedium_reloc (s : State) (x : Memory) : (s.setMedium x).reloc = s.reloc := rfl
@[simp] theorem setMedium_erase (s : State) (x : Memory) : (s.setMedium x).erase = s.erase := rfl
@[simp] theorem setMedium_dies (s : State) (x : Memory) : (s.setMedium x).dies = s.dies := rfl
@[simp] theorem setMedium_host (s : State) (x : Memory) : (s.setMedium x).host = s.host := rfl
@[simp] theorem setMedium_regions (s : State) (x : Memory) : (s.setMedium x).regions = s.regions := rfl
@[simp] theorem setMedium_scan (s : State) (x : Memory) : (s.setMedium x).scan = s.scan := rfl
@[simp] theorem setMedium_release (s : State) (x : Memory) : (s.setMedium x).release = s.release := rfl
@[simp] theorem setMedium_link (s : State) (x : Memory) : (s.setMedium x).link = s.link := rfl
@[simp] theorem setMedium_medium (s : State) (x : Memory) : (s.setMedium x).medium = x := rfl
@[simp] theorem setMedium_now (s : State) (x : Memory) : (s.setMedium x).now = s.now := rfl
@[simp] theorem setMedium_draws (s : State) (x : Memory) : (s.setMedium x).draws = s.draws := rfl

@[simp] theorem setNow_pending (s : State) (x : Nat) : (s.setNow x).pending = s.pending := rfl
@[simp] theorem setNow_power (s : State) (x : Nat) : (s.setNow x).power = s.power := rfl
@[simp] theorem setNow_wmb (s : State) (x : Nat) : (s.setNow x).wmb = s.wmb := rfl
@[simp] theorem setNow_map (s : State) (x : Nat) : (s.setNow x).map = s.map := rfl
@[simp] theorem setNow_acct (s : State) (x : Nat) : (s.setNow x).acct = s.acct := rfl
@[simp] theorem setNow_lanes (s : State) (x : Nat) : (s.setNow x).lanes = s.lanes := rfl
@[simp] theorem setNow_reloc (s : State) (x : Nat) : (s.setNow x).reloc = s.reloc := rfl
@[simp] theorem setNow_erase (s : State) (x : Nat) : (s.setNow x).erase = s.erase := rfl
@[simp] theorem setNow_dies (s : State) (x : Nat) : (s.setNow x).dies = s.dies := rfl
@[simp] theorem setNow_host (s : State) (x : Nat) : (s.setNow x).host = s.host := rfl
@[simp] theorem setNow_regions (s : State) (x : Nat) : (s.setNow x).regions = s.regions := rfl
@[simp] theorem setNow_scan (s : State) (x : Nat) : (s.setNow x).scan = s.scan := rfl
@[simp] theorem setNow_release (s : State) (x : Nat) : (s.setNow x).release = s.release := rfl
@[simp] theorem setNow_link (s : State) (x : Nat) : (s.setNow x).link = s.link := rfl
@[simp] theorem setNow_medium (s : State) (x : Nat) : (s.setNow x).medium = s.medium := rfl
@[simp] theorem setNow_now (s : State) (x : Nat) : (s.setNow x).now = x := rfl
@[simp] theorem setNow_draws (s : State) (x : Nat) : (s.setNow x).draws = s.draws := rfl

@[simp] theorem setDraws_pending (s : State) (x : Nat) : (s.setDraws x).pending = s.pending := rfl
@[simp] theorem setDraws_power (s : State) (x : Nat) : (s.setDraws x).power = s.power := rfl
@[simp] theorem setDraws_wmb (s : State) (x : Nat) : (s.setDraws x).wmb = s.wmb := rfl
@[simp] theorem setDraws_map (s : State) (x : Nat) : (s.setDraws x).map = s.map := rfl
@[simp] theorem setDraws_acct (s : State) (x : Nat) : (s.setDraws x).acct = s.acct := rfl
@[simp] theorem setDraws_lanes (s : State) (x : Nat) : (s.setDraws x).lanes = s.lanes := rfl
@[simp] theorem setDraws_reloc (s : State) (x : Nat) : (s.setDraws x).reloc = s.reloc := rfl
@[simp] theorem setDraws_erase (s : State) (x : Nat) : (s.setDraws x).erase = s.erase := rfl
@[simp] theorem setDraws_dies (s : State) (x : Nat) : (s.setDraws x).dies = s.dies := rfl
@[simp] theorem setDraws_host (s : State) (x : Nat) : (s.setDraws x).host = s.host := rfl
@[simp] theorem setDraws_regions (s : State) (x : Nat) : (s.setDraws x).regions = s.regions := rfl
@[simp] theorem setDraws_scan (s : State) (x : Nat) : (s.setDraws x).scan = s.scan := rfl
@[simp] theorem setDraws_release (s : State) (x : Nat) : (s.setDraws x).release = s.release := rfl
@[simp] theorem setDraws_link (s : State) (x : Nat) : (s.setDraws x).link = s.link := rfl
@[simp] theorem setDraws_medium (s : State) (x : Nat) : (s.setDraws x).medium = s.medium := rfl
@[simp] theorem setDraws_now (s : State) (x : Nat) : (s.setDraws x).now = s.now := rfl
@[simp] theorem setDraws_draws (s : State) (x : Nat) : (s.setDraws x).draws = x := rfl

end Sys2Proof.Machine
end

