-- ==== Sys2Proof/Laws/Table.lean ====
section
/-!
SUPPORT. Laws of sparse tables and of the medium: a read after a store, and that every operation keeps
the canonical form.
-/

namespace Sys2Proof.Machine

open Sys2Proof

variable {α : Type}

theorem Table.find_drop_same (t : Table α) (k : Nat) : Table.find (Table.drop t k) k = none := by
  induction t with
  | nil => rfl
  | cons c rest ih =>
    by_cases h : c.1 = k <;> simp_all [Table.drop, Table.find]

theorem Table.find_drop_other (t : Table α) {k j : Nat} (h : j ≠ k) :
    Table.find (Table.drop t k) j = Table.find t j := by
  induction t with
  | nil => rfl
  | cons c rest ih =>
    by_cases hk : c.1 = k
    · have : c.1 ≠ j := fun e => h (e.symm.trans hk)
      simp_all [Table.drop, Table.find]
    · by_cases hj : c.1 = j <;> simp_all [Table.drop, Table.find]

theorem Table.find_insert_same (t : Table α) (k : Nat) (v : α) (h : Table.find t k = none) :
    Table.find (Table.insert k v t) k = some v := by
  induction t with
  | nil => simp [Table.insert, Table.find]
  | cons c rest ih =>
    by_cases hk : c.1 = k
    · simp [Table.find, hk] at h
    · by_cases hl : k < c.1
      · simp [Table.insert, Table.find, hl]
      · rw [Table.find, if_neg hk] at h
        rw [Table.insert, if_neg hl, Table.find, if_neg hk, ih h]

theorem Table.find_insert_other (t : Table α) {k j : Nat} (v : α) (h : j ≠ k) :
    Table.find (Table.insert k v t) j = Table.find t j := by
  induction t with
  | nil => simp [Table.insert, Table.find, h.symm]
  | cons c rest ih =>
    by_cases hl : k < c.1
    · simp [Table.insert, Table.find, hl, h.symm]
    · simp [Table.insert, Table.find, hl, ih]

/-- A find after a put at the same key gives the value put. -/
@[simp] theorem Table.find_put_same (t : Table α) (k : Nat) (v : α) :
    Table.find (Table.put t k v) k = some v :=
  Table.find_insert_same _ _ _ (Table.find_drop_same t k)

/-- A put leaves every other key alone. -/
theorem Table.find_put_other (t : Table α) {k j : Nat} (v : α) (h : j ≠ k) :
    Table.find (Table.put t k v) j = Table.find t j := by
  rw [Table.put, Table.find_insert_other _ _ h, Table.find_drop_other _ h]

/-- A read after a store at the same key gives the value stored. -/
@[simp] theorem Table.read_store_same [DecidableEq α] (d : α) (t : Table α) (k : Nat) (v : α) :
    Table.read d (Table.store d t k v) k = v := by
  by_cases h : v = d <;> simp [Table.read, Table.store, h, Table.find_drop_same]

/-- A store leaves every other key alone. -/
theorem Table.read_store_other [DecidableEq α] (d : α) (t : Table α) {k j : Nat} (v : α)
    (h : j ≠ k) : Table.read d (Table.store d t k v) j = Table.read d t j := by
  by_cases hv : v = d
  · simp [Table.read, Table.store, hv, Table.find_drop_other _ h]
  · simp [Table.read, Table.store, hv, Table.find_put_other _ _ h]

theorem Table.drop_sorted {t : Table α} (k : Nat) (h : Table.Sorted t) :
    Table.Sorted (Table.drop t k) :=
  h.sublist (List.filter_sublist.map _)

theorem Table.mem_insert {t : Table α} {k : Nat} {v : α} {c : Nat × α} :
    c ∈ Table.insert k v t ↔ c = (k, v) ∨ c ∈ t := by
  induction t with
  | nil => simp [Table.insert]
  | cons x rest ih =>
    by_cases h : k < x.1
    · simp [Table.insert, h]
    · simp [Table.insert, h, ih]; tauto

theorem Table.insert_sorted {t : Table α} {k : Nat} (v : α) (h : Table.Sorted t)
    (hk : ∀ c ∈ t, c.1 ≠ k) : Table.Sorted (Table.insert k v t) := by
  induction t with
  | nil => simp [Table.insert, Table.Sorted]
  | cons x rest ih =>
    simp only [Table.Sorted, List.map_cons, List.pairwise_cons] at h
    by_cases hl : k < x.1
    · simp only [Table.insert, hl, if_true, Table.Sorted, List.map_cons, List.pairwise_cons,
        List.mem_cons, List.mem_map]
      refine ⟨?_, fun a ha => h.1 a (by simpa using ha), h.2⟩
      rintro a (rfl | ⟨c, hc, rfl⟩)
      · exact hl
      · exact Nat.lt_trans hl (h.1 _ (List.mem_map_of_mem hc))
    · simp only [Table.insert, hl, if_false, Table.Sorted, List.map_cons, List.pairwise_cons]
      refine ⟨?_, ih h.2 fun c hc => hk c (List.mem_cons_of_mem _ hc)⟩
      intro a ha
      obtain ⟨c, hc, rfl⟩ := List.mem_map.1 ha
      have hx := hk x (List.mem_cons_self)
      rcases Table.mem_insert.1 hc with rfl | hc
      · simp only; omega
      · exact h.1 _ (List.mem_map_of_mem hc)

/-- A put keeps the keys rising. -/
theorem Table.put_sorted {t : Table α} (k : Nat) (v : α) (h : Table.Sorted t) :
    Table.Sorted (Table.put t k v) :=
  Table.insert_sorted v (Table.drop_sorted k h) fun c hc => by
    simpa using (List.mem_filter.1 hc).2

/-- A store keeps the canonical form. -/
theorem Table.store_canonical [DecidableEq α] {d : α} {t : Table α} (k : Nat) (v : α)
    (h : Table.Canonical d t) : Table.Canonical d (Table.store d t k v) := by
  unfold Table.store
  split
  · exact ⟨Table.drop_sorted k h.1, fun c hc => h.2 c (List.mem_filter.1 hc).1⟩
  · rename_i hv
    refine ⟨Table.put_sorted k v h.1, fun c hc => ?_⟩
    rcases Table.mem_insert.1 hc with rfl | hc
    · exact hv
    · exact h.2 c (List.mem_filter.1 hc).1

theorem Table.filter_canonical [DecidableEq α] {d : α} {t : Table α} (p : Nat × α → Bool)
    (h : Table.Canonical d t) : Table.Canonical d (t.filter p) :=
  ⟨h.1.sublist (List.filter_sublist.map _), fun c hc => h.2 c (List.mem_filter.1 hc).1⟩

/-- Changing or dropping listed values in place, keys kept and no default listed, keeps the canonical
form. -/
theorem Table.filterMap_canonical [DecidableEq α] {d : α} {t : Table α}
    {f : Nat × α → Option (Nat × α)} (h : Table.Canonical d t)
    (hf : ∀ c ∈ t, ∀ x, f c = some x → x.1 = c.1 ∧ x.2 ≠ d) :
    Table.Canonical d (t.filterMap f) := by
  induction t with
  | nil => exact ⟨List.Pairwise.nil, by simp⟩
  | cons c rest ih =>
    have hs : Table.Sorted (c :: rest) := h.1
    simp only [Table.Sorted, List.map_cons, List.pairwise_cons] at hs
    have ih := ih ⟨hs.2, fun x hx => h.2 x (List.mem_cons_of_mem _ hx)⟩
      fun x hx => hf x (List.mem_cons_of_mem _ hx)
    cases hc : f c with
    | none => simpa [List.filterMap_cons, hc] using ih
    | some y =>
      have hy := hf c List.mem_cons_self y hc
      simp only [List.filterMap_cons, hc]
      refine ⟨?_, fun x hx => ?_⟩
      · simp only [Table.Sorted, List.map_cons, List.pairwise_cons]
        refine ⟨fun a ha => ?_, ih.1⟩
        obtain ⟨z, hz, rfl⟩ := List.mem_map.1 ha
        obtain ⟨x, hx, hxz⟩ := List.mem_filterMap.1 hz
        rw [hy.1, (hf x (List.mem_cons_of_mem _ hx) z hxz).1]
        exact hs.1 _ (List.mem_map_of_mem hx)
      · rcases List.mem_cons.1 hx with rfl | hx
        · exact hy.2
        · exact ih.2 x hx

/-! ### The medium -/

/-- A byte read after it is stored. -/
@[simp] theorem Memory.byte_setByte_same (m : Memory) (a : Nat) (b : Byte) :
    (m.setByte a b).byte a = b := Table.read_store_same _ _ _ _

/-- A store leaves every other byte alone. -/
theorem Memory.byte_setByte_other (m : Memory) {a x : Nat} (b : Byte) (h : x ≠ a) :
    (m.setByte a b).byte x = m.byte x := Table.read_store_other _ _ _ h

theorem Memory.setByte_wf {m : Memory} (a : Nat) (b : Byte) (h : m.wf) : (m.setByte a b).wf :=
  Table.store_canonical a b h

theorem Memory.setBytes_wf {m : Memory} (a : Nat) (bs : List Byte) (h : m.wf) :
    (m.setBytes a bs).wf := by
  induction bs generalizing m a with
  | nil => exact h
  | cons b rest ih => exact ih (a + 1) (Memory.setByte_wf a b h)

/-- Storing bytes leaves alone every byte before and after them. -/
theorem Memory.byte_setBytes_outside (m : Memory) (a x : Nat) (bs : List Byte)
    (h : x < a ∨ a + bs.length ≤ x) : (m.setBytes a bs).byte x = m.byte x := by
  induction bs generalizing m a with
  | nil => rfl
  | cons b rest ih =>
    simp only [List.length_cons] at h
    rw [Memory.setBytes, ih _ _ (by omega), Memory.byte_setByte_other _ _ (by omega)]

/-- A stored byte reads back. -/
theorem Memory.byte_setBytes_inside (m : Memory) (a i : Nat) (bs : List Byte)
    (h : i < bs.length) : (m.setBytes a bs).byte (a + i) = bs[i] := by
  induction bs generalizing m a i with
  | nil => exact absurd h (by simp)
  | cons b rest ih =>
    rw [Memory.setBytes]
    cases i with
    | zero =>
      rw [Memory.byte_setBytes_outside _ _ _ _ (by omega)]; simp
    | succ i =>
      have := ih (m.setByte a b) (a + 1) i (by simpa using h)
      rw [show a + (i + 1) = a + 1 + i by omega, this]; rfl

theorem Memory.cutProgram_wf {m : Memory} (draw : Nat) (op : DieOp) (h : m.wf) :
    (m.cutProgram draw op).wf := by
  cases op <;> simp only [Memory.cutProgram]
  case programLine => exact Memory.setBytes_wf _ _ h
  case programTag =>
    split
    · exact Memory.setBytes_wf _ _ h
    · exact h
  all_goals exact h

theorem Memory.program_wf {m : Memory} (draw : Nat) (op : DieOp) (ok : Bool) (h : m.wf) :
    (m.program draw op ok).1.wf := by
  unfold Memory.program
  split
  · exact h
  · split
    · exact Memory.setBytes_wf _ _ h
    · exact Memory.cutProgram_wf draw op h

theorem Memory.eraseSector_wf {m : Memory} (p : Phys) (h : m.wf) : (m.eraseSector p).wf :=
  Table.filter_canonical _ h

theorem Memory.cutTag_wf {m : Memory} (draw : Nat) (p : Phys) (fs : List TagField) (h : m.wf) :
    (m.cutTag draw p fs).wf := by
  induction fs generalizing m with
  | nil => exact h
  | cons f rest ih => exact ih (Memory.setBytes_wf _ _ h)

theorem Memory.cutErase_wf {m : Memory} (draw : Nat) (p : Phys) (h : m.wf) :
    (m.cutErase draw p).wf := by
  unfold Memory.cutErase
  split
  · apply Memory.cutTag_wf
    apply Table.filterMap_canonical h
    intro c hc x hx
    have hd := h.2 c hc
    simp only [cutTagCell] at hx
    split at hx
    · obtain rfl := Option.some.inj hx; exact ⟨rfl, hd⟩
    · split at hx
      · cases hx
      · split at hx
        · cases hx
        · obtain rfl := Option.some.inj hx; exact ⟨rfl, by assumption⟩
  · apply Table.filterMap_canonical h
    intro c hc x hx
    have hd := h.2 c hc
    simp only [cutMainCell] at hx
    split at hx
    · split at hx
      · cases hx
      · obtain rfl := Option.some.inj hx; exact ⟨rfl, by assumption⟩
    · obtain rfl := Option.some.inj hx; exact ⟨rfl, hd⟩

/-- An erase that passes leaves every byte of the sector erased (R47). -/
theorem Memory.byte_eraseSector_inside (m : Memory) (p : Phys) (a : Nat)
    (h : inSector p a = true) : (m.eraseSector p).byte a = erasedByte := by
  have hn : Table.find (m.filter fun c => !inSector p c.1) a = none := by
    induction m with
    | nil => rfl
    | cons c rest ih =>
      by_cases hc : inSector p c.1 = true
      · simpa [List.filter_cons, hc] using ih
      · have : c.1 ≠ a := fun e => hc (e ▸ h)
        simpa [List.filter_cons, hc, Table.find, this] using ih
  simp only [Memory.byte, Memory.eraseSector, Table.read]
  exact congrArg (·.getD erasedByte) hn

/-- An erase leaves every byte outside the sector alone (R47). -/
theorem Memory.byte_eraseSector_outside (m : Memory) (p : Phys) (a : Nat)
    (h : inSector p a = false) : (m.eraseSector p).byte a = m.byte a := by
  have hn : Table.find (m.filter fun c => !inSector p c.1) a = Table.find m a := by
    induction m with
    | nil => rfl
    | cons c rest ih =>
      by_cases hc : inSector p c.1 = true
      · have : c.1 ≠ a := fun e => by rw [e, h] at hc; cases hc
        simpa [List.filter_cons, hc, Table.find, this] using ih
      · simp [hc, Table.find, ih]
  simp only [Memory.byte, Memory.eraseSector, Table.read]
  exact congrArg (·.getD erasedByte) hn

/-- The medium right after POR stands in canonical form. -/
theorem reset_medium_wf : Memory.wf State.reset.medium :=
  ⟨List.Pairwise.nil, fun _ h => absurd h (by simp [State.reset])⟩

end Sys2Proof.Machine
end

