-- ==== Sys2Proof/Laws/Ops.lean ====
section
/-!
SUPPORT. For each shared operation, once, what it can change: its result is the state before it with
the named blocks replaced. With the lemmas of Laws/State.lean every other field follows by simp.
-/

namespace Sys2Proof.Machine

open Sys2Proof

/-! ### Replacing some of several blocks -/

theorem map_as (s : State) (m : Table MapEntry) :
    ∃ m' r, s.setMap m = (s.setMap m').setReloc r := ⟨m, s.reloc, rfl⟩

theorem wmb_as (s : State) (w : Wmb) :
    ∃ w' m r, s.setWmb w = ((s.setWmb w').setMap m).setReloc r := ⟨w, s.map, s.reloc, rfl⟩

theorem dies_as (s : State) (ds : PerDie Die) :
    ∃ ds' m n, s.setDies ds = ((s.setDies ds').setMedium m).setDraws n :=
  ⟨ds, s.medium, s.draws, rfl⟩

theorem dies_as_read (s : State) (h : HostPort) (ds : PerDie Die) :
    ∃ ds' p l, (s.setHost h).setDies ds = ((s.setDies ds').setHost p).setLink l :=
  ⟨ds, h, s.link, rfl⟩

theorem host_as (s : State) (h : HostPort) :
    ∃ w m r p l, s.setHost h = ((((s.setWmb w).setMap m).setReloc r).setHost p).setLink l :=
  ⟨s.wmb, s.map, s.reloc, h, s.link, by cases s; rfl⟩

theorem host_as_arrival (s : State) (h : HostPort) :
    ∃ w m r ds p l, s.setHost h
      = (((((s.setWmb w).setMap m).setReloc r).setDies ds).setHost p).setLink l :=
  ⟨s.wmb, s.map, s.reloc, s.dies, h, s.link, by cases s; rfl⟩

theorem host_link_as_arrival (s : State) (h : HostPort) (x : Link) :
    ∃ w m r ds p l, (s.setHost h).setLink x
      = (((((s.setWmb w).setMap m).setReloc r).setDies ds).setHost p).setLink l :=
  ⟨s.wmb, s.map, s.reloc, s.dies, h, x, by cases s; rfl⟩

/-! ### Records and counters -/

theorem record_shape (b : RecordBody) (s : State) : ∃ l, record b s = s.setLink l := by
  unfold record; split <;> exact ⟨_, rfl⟩

/-- Each record takes the next sequence number (R174). -/
@[simp] theorem record_sequence (b : RecordBody) (s : State) :
    (record b s).link.sequence = s.link.sequence + 1 := by
  unfold record; split <;> rfl

/-- A record joins the tail of a queue that is not full (R174). -/
theorem record_faults_of_room (b : RecordBody) (s : State)
    (h : s.link.faults.length < faultQueueSize) :
    (record b s).link.faults = s.link.faults ++ [⟨s.link.sequence, b⟩] := by
  simp [record, h]

/-- A record is dropped on a full queue (R174). -/
theorem record_faults_of_full (b : RecordBody) (s : State)
    (h : ¬ s.link.faults.length < faultQueueSize) :
    (record b s).link.faults = s.link.faults := by
  simp [record, h]

@[simp] theorem record_counters (b : RecordBody) (s : State) :
    (record b s).link.counters = s.link.counters := by
  unfold record; split <;> rfl

theorem countUp_shape (k : CounterName) (n : Nat) (s : State) :
    ∃ l, countUp k n s = s.setLink l := ⟨_, rfl⟩

@[simp] theorem countUp_counters (k : CounterName) (n : Nat) (s : State) :
    (countUp k n s).link.counters = s.link.counters.add k n := rfl

@[simp] theorem countUp_faults (k : CounterName) (n : Nat) (s : State) :
    (countUp k n s).link.faults = s.link.faults := rfl

/-! ### The map -/

@[simp] theorem mapEntry_setMapEntry_same (l : Sector) (e : MapEntry) (s : State) :
    mapEntry (setMapEntry l e s) l = e := Table.read_store_same _ _ _ _

theorem mapEntry_setMapEntry_other {l x : Sector} (e : MapEntry) (s : State) (h : x ≠ l) :
    mapEntry (setMapEntry l e s) x = mapEntry s x :=
  Table.read_store_other _ _ _ fun hv => h (Fin.ext hv)

theorem setMapEntry_shape (l : Sector) (e : MapEntry) (s : State) :
    ∃ m, setMapEntry l e s = s.setMap m := ⟨_, rfl⟩

theorem mapEntry_congr {s t : State} (h : t.map = s.map) (l : Sector) :
    mapEntry t l = mapEntry s l := by simp [mapEntry, h]

theorem requestReloc_shape (l : Sector) (reason : RelocReason) (s : State) :
    ∃ m r, requestReloc l reason s = (s.setMap m).setReloc r := by
  unfold requestReloc
  dsimp only
  split <;> first | exact ⟨_, _, rfl⟩ | exact map_as s _

/-- A relocation request leaves every map entry's binding, releasing and suspect fields alone. -/
theorem requestReloc_entry (l x : Sector) (reason : RelocReason) (s : State) :
    ∃ f, mapEntry (requestReloc l reason s) x = { mapEntry s x with reloc := f } := by
  by_cases h : x = l
  · subst h
    unfold requestReloc
    dsimp only
    split <;> first
      | exact ⟨_, mapEntry_setMapEntry_same _ _ _⟩
      | exact ⟨_, rfl⟩
  · refine ⟨(mapEntry s x).reloc, ?_⟩
    unfold requestReloc
    dsimp only
    split <;> first
      | exact mapEntry_setMapEntry_other _ _ h
      | rfl

/-! ### The write-merge buffer -/

theorem sealEntry_shape (id : Nat) (s : State) :
    ∃ w m r, sealEntry id s = ((s.setWmb w).setMap m).setReloc r := by
  unfold sealEntry
  split
  · exact ⟨_, _, _, rfl⟩
  · dsimp only
    split
    · obtain ⟨m, r, h⟩ := requestReloc_shape _ .backing _
      rw [h]
      exact ⟨_, _, _, rfl⟩
    · exact wmb_as s _

/-- The act of sealing leaves every map entry's binding and flags alone. -/
theorem sealEntry_entry (id : Nat) (s : State) (x : Sector) :
    ∃ f, mapEntry (sealEntry id s) x = { mapEntry s x with reloc := f } := by
  unfold sealEntry
  split
  · exact ⟨_, rfl⟩
  · dsimp only
    split
    · exact requestReloc_entry _ x .backing _
    · exact ⟨_, rfl⟩

theorem sealList_shape (ids : List Nat) (s : State) :
    ∃ w m r, ids.foldl (fun t id => sealEntry id t) s = ((s.setWmb w).setMap m).setReloc r := by
  induction ids generalizing s with
  | nil => exact ⟨_, _, _, rfl⟩
  | cons id rest ih =>
    obtain ⟨w, m, r, h⟩ := sealEntry_shape id s
    obtain ⟨w', m', r', h'⟩ := ih (sealEntry id s)
    exact ⟨w', m', r', by rw [List.foldl_cons, h', h]; rfl⟩

theorem sealList_entry (ids : List Nat) (s : State) (x : Sector) :
    ∃ f, mapEntry (ids.foldl (fun t id => sealEntry id t) s) x
      = { mapEntry s x with reloc := f } := by
  induction ids generalizing s with
  | nil => exact ⟨_, rfl⟩
  | cons id rest ih =>
    obtain ⟨f, h⟩ := sealEntry_entry id s x
    obtain ⟨f', h'⟩ := ih (sealEntry id s)
    exact ⟨f', by rw [List.foldl_cons, h', h]⟩

theorem sealWhere_shape (p : Entry → Bool) (s : State) :
    ∃ w m r, sealWhere p s = ((s.setWmb w).setMap m).setReloc r := sealList_shape _ s

theorem sealWhere_entry (p : Entry → Bool) (s : State) (x : Sector) :
    ∃ f, mapEntry (sealWhere p s) x = { mapEntry s x with reloc := f } := sealList_entry _ s x

theorem sealAll_shape (s : State) :
    ∃ w m r, sealAll s = ((s.setWmb w).setMap m).setReloc r := sealWhere_shape _ s

theorem sealOldest_shape (s : State) :
    ∃ w m r, sealOldest s = ((s.setWmb w).setMap m).setReloc r := by
  unfold sealOldest
  split
  · exact sealEntry_shape _ s
  · exact ⟨_, _, _, rfl⟩

theorem openEntry_shape (line : LineNo) (bytes : List (Option Byte)) (s : State) :
    ∃ w m r, openEntry line bytes s = ((s.setWmb w).setMap m).setReloc r := by
  unfold openEntry
  dsimp only
  split <;> split
  · obtain ⟨w, m, r, h⟩ := sealEntry_shape s.wmb.openCounter _
    obtain ⟨w', m', r', h'⟩ := sealOldest_shape (sealEntry s.wmb.openCounter _)
    exact ⟨w', m', r', by rw [h', h]; rfl⟩
  · obtain ⟨w, m, r, h⟩ := sealEntry_shape s.wmb.openCounter _
    exact ⟨w, m, r, by rw [h]; rfl⟩
  · obtain ⟨w, m, r, h⟩ := sealOldest_shape _
    exact ⟨w, m, r, by rw [h]; rfl⟩
  · exact wmb_as s _

theorem mergeEntry_shape (e : Entry) (bytes : List (Option Byte)) (s : State) :
    ∃ w m r, mergeEntry e bytes s = ((s.setWmb w).setMap m).setReloc r := by
  unfold mergeEntry
  dsimp only
  split
  · obtain ⟨w, m, r, h⟩ := sealEntry_shape e.openOrder _
    exact ⟨w, m, r, by rw [h]; rfl⟩
  · exact wmb_as s _

/-- A write the WMB takes changes the WMB, and by sealing the map's relocation fields and the
relocation queue. -/
theorem presentWrite_shape {line : LineNo} {bytes : List (Option Byte)} {s t : State}
    (h : presentWrite line bytes s = some t) :
    ∃ w m r, t = ((s.setWmb w).setMap m).setReloc r := by
  unfold presentWrite at h
  split at h
  · obtain rfl := Option.some.inj h; exact mergeEntry_shape _ _ _
  · split at h
    · obtain rfl := Option.some.inj h; exact openEntry_shape _ _ _
    · cases h

theorem freeWhere_shape (p : Entry → Bool) (s : State) : ∃ w, freeWhere p s = s.setWmb w :=
  ⟨_, rfl⟩

/-- A discard frees the entries named, counts them, and leaves the rest of the part alone (R19). -/
theorem discardWhere_shape (p : Entry → Bool) (s : State) :
    ∃ w l, (discardWhere p s).1 = (s.setWmb w).setLink l := ⟨_, _, rfl⟩

@[simp] theorem discardWhere_entries (p : Entry → Bool) (s : State) :
    (discardWhere p s).1.wmb.entries = s.wmb.entries.filter fun e => !p e := rfl

@[simp] theorem discardWhere_count (p : Entry → Bool) (s : State) :
    (discardWhere p s).2 = s.wmb.entries.countP p := rfl

/-! ### Sector accounting -/

theorem moveTo_shape (m : Membership) (p : Phys) (s : State) :
    ∃ a, moveTo m p s = s.setAcct a := ⟨_, rfl⟩

theorem joinPool_shape (p : Phys) (c : EraseCount) (s : State) :
    ∃ a, joinPool p c s = s.setAcct a := ⟨_, rfl⟩

theorem joinEraseQueue_shape (p : Phys) (s : State) :
    ∃ a, joinEraseQueue p s = s.setAcct a := ⟨_, rfl⟩

theorem joinRetired_shape (p : Phys) (reason : RetireReason) (s : State) :
    ∃ a l, joinRetired p reason s = (s.setAcct a).setLink l := ⟨_, _, rfl⟩

/-- A sector moved stands in the set it was moved to, with its known count (R32). -/
theorem moveTo_rec (m : Membership) (p : Phys) (s : State) :
    Table.find (moveTo m p s).acct.recs p.val = some ⟨m, knownCount s p⟩ :=
  Table.find_put_same _ _ _

/-- A move leaves every other sector's record alone (R32). -/
theorem moveTo_rec_other (m : Membership) {p q : Phys} (s : State) (h : q ≠ p) :
    Table.find (moveTo m p s).acct.recs q.val = Table.find s.acct.recs q.val :=
  Table.find_put_other _ _ fun hv => h (Fin.ext hv)

/-! ### Die schedulers -/

theorem setDie_shape (d : DieId) (x : Die) (s : State) : ∃ ds, setDie d x s = s.setDies ds :=
  ⟨_, rfl⟩

@[simp] theorem setDie_get_same (d : DieId) (x : Die) (s : State) :
    (setDie d x s).dies.get d = x := by cases d <;> rfl

theorem setDie_get_other {d e : DieId} (x : Die) (s : State) (h : e ≠ d) :
    (setDie d x s).dies.get e = s.dies.get e := by
  cases d <;> cases e <;> first | rfl | exact absurd rfl h

/-- A new die state ends a standing report of IDLE and keeps what waits (R117, log 29). -/
@[simp] theorem setDieState_get_same (d : DieId) (x : DieState) (s : State) :
    (setDieState d x s).dies.get d = { s.dies.get d with state := x, reported := false } :=
  setDie_get_same d _ s

theorem setDieState_get_other {d e : DieId} (x : DieState) (s : State) (h : e ≠ d) :
    (setDieState d x s).dies.get e = s.dies.get e := setDie_get_other _ s h

theorem issue_shape (who : Requester) (op : DieOp) (s : State) :
    ∃ ds, issue who op s = s.setDies ds := ⟨_, rfl⟩

/-- A request issued waits at the scheduler of its die, last in order of arrival (R116). -/
theorem issue_waiting (who : Requester) (op : DieOp) (s : State) :
    ((issue who op s).dies.get (dieOf op.phys)).waiting =
      (s.dies.get (dieOf op.phys)).waiting ++ [⟨who, op, s.now⟩] := by
  simp [issue]

/-- A request issued changes no die state (R116). -/
theorem issue_state (who : Requester) (op : DieOp) (s : State) (d : DieId) :
    ((issue who op s).dies.get d).state = (s.dies.get d).state := by
  by_cases h : d = dieOf op.phys
  · subst h; simp [issue]
  · rw [issue, setDie_get_other _ _ h]

theorem cutInProgress_shape (d : DieId) (s : State) :
    ∃ m n, cutInProgress d s = (s.setMedium m).setDraws n := by
  unfold cutInProgress
  split <;> exact ⟨_, _, rfl⟩

theorem cutInProgress_wf {s : State} (d : DieId) (h : s.medium.wf) :
    (cutInProgress d s).medium.wf := by
  unfold cutInProgress
  split
  · exact Memory.cutProgram_wf _ _ h
  · exact Memory.cutErase_wf _ _ h
  · exact Memory.cutErase_wf _ _ h
  · exact Memory.cutErase_wf _ _ h
  · exact Memory.cutErase_wf _ _ h
  all_goals exact h

theorem dieReset_shape (d : DieId) (cause : ResetCause) (s : State) :
    ∃ ds m n, dieReset d cause s = ((s.setDies ds).setMedium m).setDraws n := by
  obtain ⟨m, n, h⟩ := cutInProgress_shape d s
  unfold dieReset
  rw [h]
  exact ⟨_, _, _, rfl⟩

theorem settleDie_shape (d : DieId) (s : State) :
    ∃ ds m n, settleDie d s = ((s.setDies ds).setMedium m).setDraws n := by
  unfold settleDie
  dsimp only
  split
  · exact ⟨s.dies, s.medium, s.draws, rfl⟩
  · split
    · split <;> exact dies_as s _
    · split
      · exact dieReset_shape _ _ _
      · split <;> exact dies_as s _
    · split <;> exact dies_as s _
    all_goals exact ⟨s.dies, s.medium, s.draws, rfl⟩

theorem settleDie_wf {s : State} (d : DieId) (h : s.medium.wf) : (settleDie d s).medium.wf := by
  unfold settleDie
  dsimp only
  split
  · exact h
  · split
    · split <;> exact h
    · split
      · exact cutInProgress_wf d h
      · split <;> exact h
    · split <;> exact h
    all_goals exact h

/-- A scheduler's choice is its own die's (R114). -/
theorem settleDie_get_other {d e : DieId} (s : State) (h : e ≠ d) :
    (settleDie d s).dies.get e = s.dies.get e := by
  unfold settleDie
  dsimp only
  split
  · rfl
  · split
    · split <;> exact setDie_get_other _ s h
    · split
      · obtain ⟨m, n, hc⟩ := cutInProgress_shape d s
        rw [dieReset, setDieState_get_other _ _ h, hc]
        rfl
      · split <;> exact setDie_get_other _ s h
    · split
      · exact setDie_get_other _ s h
      · rfl
    all_goals rfl

/-- The schedulers' choices change the dies alone, and the medium where an abandonment falls due in a
hold (R117, R123, R125, R128). -/
theorem settle_shape (s : State) :
    ∃ ds m n, settle s = ((s.setDies ds).setMedium m).setDraws n := by
  obtain ⟨ds, m, n, h⟩ := settleDie_shape .die0 s
  obtain ⟨ds', m', n', h'⟩ := settleDie_shape .die1 (settleDie .die0 s)
  exact ⟨ds', m', n', by rw [settle, h', h]; rfl⟩

theorem settle_wf {s : State} (h : s.medium.wf) : (settle s).medium.wf :=
  settleDie_wf _ (settleDie_wf _ h)

/-- In FAILED the schedulers do nothing (R129). -/
theorem settleDie_failed {s : State} (d : DieId) (h : s.power.op = .failed) :
    settleDie d s = s := by simp [settleDie, h]

theorem settle_failed {s : State} (h : s.power.op = .failed) : settle s = s := by
  rw [settle, settleDie_failed .die0 h, settleDie_failed .die1 h]

/-- In FAILED no result is delivered (R129). -/
theorem answering_failed {s : State} (d : DieId) (who : Requester) (h : s.power.op = .failed) :
    answering s d who = none := by simp [answering, h]

theorem endOperation_shape (d : DieId) (s : State) :
    ∃ ds, endOperation d s = s.setDies ds := by
  unfold endOperation
  split <;> exact ⟨_, rfl⟩

theorem endProgram_shape (op : DieOp) (ok : Bool) (s : State) :
    ∃ m n, (endProgram op ok s).1 = (s.setMedium m).setDraws n := ⟨_, _, rfl⟩

theorem endProgram_wf {s : State} (op : DieOp) (ok : Bool) (h : s.medium.wf) :
    (endProgram op ok s).1.medium.wf := Memory.program_wf _ _ _ h

/-! ### The host port and time -/

theorem setPort_shape (p : Port) (s : State) : ∃ h, setPort p s = s.setHost h := ⟨_, rfl⟩

theorem completeRead_shape (c : HostCycle) (w : HostWord) (s : State) :
    ∃ h l, completeRead c w s = (s.setHost h).setLink l := ⟨_, _, rfl⟩

theorem refuseWrite_shape (c : HostCycle) (s : State) :
    ∃ h l, refuseWrite c s = (s.setHost h).setLink l := ⟨_, _, rfl⟩

theorem refuseDegraded_shape (c : HostCycle) (s : State) :
    ∃ h l, refuseDegraded c s = (s.setHost h).setLink l := by
  obtain ⟨l, h⟩ := record_shape (.degradedWrite (lineOf c.addr)) s
  unfold refuseDegraded
  rw [h]
  exact ⟨_, _, rfl⟩

theorem refuseHeldWrite_shape (s : State) :
    ∃ h l, refuseHeldWrite s = (s.setHost h).setLink l := by
  unfold refuseHeldWrite
  split
  · exact refuseDegraded_shape _ _
  all_goals exact ⟨_, _, rfl⟩

theorem takeOrHold_shape (h : HeldCycle) (data : HostWord) (s : State) :
    ∃ w m r p l, takeOrHold h data s
      = ((((s.setWmb w).setMap m).setReloc r).setHost p).setLink l := by
  unfold takeOrHold
  split
  · rename_i taken ht
    obtain ⟨w, m, r, rfl⟩ := presentWrite_shape ht
    exact ⟨_, _, _, _, _, rfl⟩
  · exact host_as s _

theorem writePastRegion_shape (h : HeldCycle) (data : HostWord) (s : State) :
    ∃ w m r p l, writePastRegion h data s
      = ((((s.setWmb w).setMap m).setReloc r).setHost p).setLink l := by
  unfold writePastRegion
  split
  · obtain ⟨p, l, e⟩ := refuseDegraded_shape h.cycle s
    exact ⟨s.wmb, s.map, s.reloc, _, _, e⟩
  · split
    · exact takeOrHold_shape _ _ _
    · exact host_as s _

theorem arriveWrite_shape (h : HeldCycle) (data : HostWord) (s : State) :
    ∃ w m r p l, arriveWrite h data s
      = ((((s.setWmb w).setMap m).setReloc r).setHost p).setLink l := by
  unfold arriveWrite
  split
  · split
    · obtain ⟨l, e⟩ := record_shape (.regionWrite (lineOf h.cycle.addr) ‹_›) s
      rw [e]
      exact ⟨s.wmb, s.map, s.reloc, _, _, rfl⟩
    · exact writePastRegion_shape _ _ _
  · exact writePastRegion_shape _ _ _

theorem readPastRegion_shape (h : HeldCycle) (s : State) :
    ∃ ds p l, readPastRegion h s = ((s.setDies ds).setHost p).setLink l := by
  unfold readPastRegion
  dsimp only
  split
  · split
    · exact ⟨s.dies, _, _, rfl⟩
    · exact dies_as_read s _ _
  · exact ⟨s.dies, _, _, rfl⟩

theorem arriveRead_shape (h : HeldCycle) (s : State) :
    ∃ ds p l, arriveRead h s = ((s.setDies ds).setHost p).setLink l := by
  unfold arriveRead
  split
  · split
    · obtain ⟨l, e⟩ := record_shape (.regionRead (lineOf h.cycle.addr) ‹_›) s
      rw [e]
      exact ⟨_, _, _, rfl⟩
    · exact readPastRegion_shape _ _
  · exact readPastRegion_shape _ _

/-- A cycle handled as arriving changes the port, the link's records and counters, the dies' waiting
requests, and for a write the WMB, the map's relocation fields and the relocation queue. -/
theorem handleArrival_shape (h : HeldCycle) (s : State) :
    ∃ w m r ds p l, handleArrival h s
      = (((((s.setWmb w).setMap m).setReloc r).setDies ds).setHost p).setLink l := by
  unfold handleArrival
  split
  · split <;> exact host_as_arrival s _
  · split
    · exact host_as_arrival s _
    · exact host_link_as_arrival s _ _
    · exact host_link_as_arrival s _ _
    · obtain ⟨ds, p, l, e⟩ := arriveRead_shape h s
      exact ⟨s.wmb, s.map, s.reloc, ds, p, l, e⟩
    · obtain ⟨ds, p, l, e⟩ := arriveRead_shape h s
      exact ⟨s.wmb, s.map, s.reloc, ds, p, l, e⟩
    · obtain ⟨w, m, r, p, l, e⟩ := arriveWrite_shape h ‹_› s
      exact ⟨w, m, r, s.dies, p, l, e⟩
    · obtain ⟨w, m, r, p, l, e⟩ := arriveWrite_shape h ‹_› s
      exact ⟨w, m, r, s.dies, p, l, e⟩

theorem portReturns_shape (next : Option HeldCycle) (s : State) :
    ∃ w m r ds p l, portReturns next s
      = (((((s.setWmb w).setMap m).setReloc r).setDies ds).setHost p).setLink l := by
  unfold portReturns
  split
  · obtain ⟨w, m, r, ds, p, l, e⟩ := handleArrival_shape ‹_› (setPort .idle s)
    exact ⟨w, m, r, ds, p, l, by rw [e]; rfl⟩
  · exact host_as_arrival s _

theorem presentHeldWrite_shape (s : State) :
    ∃ w m r p l, presentHeldWrite s
      = ((((s.setWmb w).setMap m).setReloc r).setHost p).setLink l := by
  unfold presentHeldWrite
  split
  · split
    · exact writePastRegion_shape _ _ _
    · exact host_as s s.host
  · exact host_as s s.host

theorem countStall_shape (s : State) :
    ∃ h l, countStall s = (s.setHost h).setLink l := by
  unfold countStall
  split
  · split <;> exact ⟨_, _, rfl⟩
  · exact ⟨_, _, rfl⟩

theorem advance_shape (dt : Nat) (s : State) :
    ∃ w h ds n, advance dt s = (((s.setWmb w).setHost h).setDies ds).setNow n :=
  ⟨(advance dt s).wmb, (advance dt s).host, (advance dt s).dies, (advance dt s).now,
    by cases s; rfl⟩

@[simp] theorem Die.elapse_waiting (op : OpState) (dt : Nat) (die : Die) :
    (die.elapse op dt).waiting = die.waiting := rfl

@[simp] theorem Die.elapse_offline (op : OpState) (dt : Nat) (die : Die) :
    (die.elapse op dt).offline = die.offline := rfl

@[simp] theorem Die.elapse_state (op : OpState) (dt : Nat) (die : Die) :
    (die.elapse op dt).state = die.state.elapse op dt := rfl

/-- The passing of time changes ages, the held cycle's stall, the dies' times, the clock, and the
count of long stalls. -/
theorem elapse_shape (dt : Nat) (s : State) :
    ∃ w h ds n l, elapse dt s = ((((s.setWmb w).setDies ds).setNow n).setHost h).setLink l := by
  obtain ⟨w, h, ds, n, e⟩ := advance_shape dt s
  obtain ⟨h', l, e'⟩ := countStall_shape (advance dt s)
  exact ⟨w, h', ds, n, l, by rw [elapse, e', e]; rfl⟩

end Sys2Proof.Machine
end

