-- ==== Sys2Proof/WellFormed.lean ====
section
/-!
DEFINITION. When a command is well formed. Every operand's range is its type's; the one relation
left is that BAD_COMMAND_FRAME carries a frame that is bad (R167).
-/

namespace Sys2Proof

/-- A BAD_COMMAND_FRAME's bytes do not stand as a command frame; every other command is well formed
by its operands' types. -/
def Instr.wellFormed (c : Instr) : Bool :=
  match c with
  | .badCommandFrame bytes =>
    match judgeFrame bytes with
    | .command _ => false
    | .badCheck | .invalid _ => true
  | _ => true

end Sys2Proof
end

