-- ==== Sys2Proof/Tests/Slice0.lean ====
section
/-!
SUPPORT. Tests: well-formedness, frames and checks written out from section 11.9 and R44, single steps
of the spec's worked examples, and for each statement with hypotheses a concrete state and operands
that meet them, each clause apart.
-/

namespace Sys2Proof.Machine.Tests

set_option Elab.async false

open Sys2Proof Sys2Proof.Machine

/-! ### Frames, checks, well-formedness -/

/-- R44, by hand: hex FF exclusive-or hex 00, eight shifts with hex 07. -/
theorem test_check_of_one_byte : crc8 [0x00] = 0xF3 := by decide +kernel

/-- The response NONE of section 11.9, its check by hand. -/
theorem test_none_response : noResponse = [0xFF, 0xFF, 0x00, 0xD7] := by decide +kernel

/-- STATUS, hex 01, no parameter (section 11.9). -/
theorem test_frame_status : judgeFrame [0x01, 0x00, 0xC2] = .command .status := by decide +kernel

/-- WRITE REGION 2, pages 16 to 16383, CLEAR-ONLY, enabled (section 11.9). -/
theorem test_frame_write_region :
    judgeFrame [0x11, 0x07, 0x02, 0x00, 0x10, 0x3F, 0xFF, 0x01, 0x01, 0x43] =
      .command (.writeRegion 2 16 16383 1 1) := by decide +kernel

/-- SET TIMING, 2,000 and 50 µs (section 11.9). -/
theorem test_frame_set_timing :
    judgeFrame [0x40, 0x04, 0x07, 0xD0, 0x00, 0x32, 0x85] = .command (.setTiming 2000 50) := by
  decide +kernel

/-- RELEASE SECTOR 1023 (section 11.9). -/
theorem test_frame_release :
    judgeFrame [0x32, 0x02, 0x03, 0xFF, 0x4E] = .command (.releaseSector 1023) := by decide +kernel

/-- A code that is none of the thirteen (R167). -/
theorem test_frame_unknown : judgeFrame (withCheck [0x13, 0x00]) = .invalid 0x13 := by decide +kernel

/-- A frame with a byte beyond its check (R167). -/
theorem test_frame_too_long : judgeFrame [0x01, 0x00, 0xC2, 0x00] = .badCheck := by decide +kernel

/-- The smoke test of WellFormed: a BAD_COMMAND_FRAME whose frame stands is refused. -/
theorem test_wellformed_refuses_good_frame :
    (Instr.badCommandFrame [0x01, 0x00, 0xC2]).wellFormed = false := by decide +kernel

theorem test_wellformed_takes_bad_frame :
    (Instr.badCommandFrame [0x01, 0x00, 0xC3]).wellFormed = true := by decide +kernel

theorem test_table_spells_nothing : decodeTableWord 16 0x0101 = none := rfl

/-- A COUNT of 12 in bytes 0 to 3 of the tag area (section 11.9, check by hand). -/
theorem test_count_field : TagContents.bytes (.count 12) = [0x00, 0x00, 0x0C, 0x0F] := by decide +kernel

/-! ### States -/

/-- A die with nothing to do. -/
def idleDie : Die := ⟨.idle, [], false, true⟩

/-- A part in an operating state, both dies IDLE, generation 1. -/
def at_ (op : OpState) : State :=
  { State.reset with
    power := { op := op, degraded := none, pfail := false, rst := false }
    dies := ⟨idleDie, idleDie⟩
    reloc := { queue := [], engine := .idle, generation := some 1 } }

/-- The part in RUNNING. -/
def run : State := at_ .running

/-- An entry's bytes: hex 34 and hex 12 at positions 0 and 1. -/
def twoBytes : List (Option Byte) := [some 0x34, some 0x12] ++ List.replicate 30 none

/-- An entry of a line. -/
def entry (line : LineNo) (order : Nat) (stage : Stage) : Entry :=
  { line := line, held := twoBytes, openOrder := order, stage := stage }

/-- A WMB with entries, its counters past them. -/
def buffer (es : List Entry) : Wmb :=
  { entries := es, openCounter := 60, sealCounter := 60, boundary := none, commitDelay := 2000 }

/-- A WMB with one entry, of a line, in a stage. -/
def one (line : LineNo) (stage : Stage) : Wmb := buffer [entry line 0 stage]

/-- Sector 0 bound to physical sector 5 with generation 1. -/
def bound (e : MapEntry) : Table MapEntry := [(0, { e with binding := some ⟨5, 1⟩ })]

/-- A read request for position 0 of physical sector 5. -/
def readReq (who : Requester) : Request := ⟨who, .readLine 5 0, 0⟩

/-- A tag program request on a physical sector. -/
def tagReq (who : Requester) (p : Phys) (c : TagContents) : Request := ⟨who, .programTag p c, 0⟩

/-- A state with die 0 in a die state. -/
def withDie (st : DieState) (s : State) : State := { s with dies := ⟨{ idleDie with state := st }, idleDie⟩ }

/-- A relocation of sector 0 from physical sector 5. -/
def job (reason : RelocReason) : Job := { sector := 0, reason := reason, source := some 5, failedTargets := 0 }

/-- A state with an engine at work. -/
def withEngine (e : Engine) (s : State) : State := { s with reloc := { s.reloc with engine := e } }

/-- A state with a port. -/
def withPort (p : Port) (s : State) : State := { s with host := { s.host with port := p } }

/-- Items of an erase slot on physical sector 7. -/
def items : SlotItems := { phys := 7, count := 41, urgent := false }

/-- An erase of physical sector 7 in progress. -/
def erasing : EraseRun := { phys := 7, progress := 399, erasing := 399, pauses := 47 }

/-- A state with the slot of die 0 in a state. -/
def withSlot (x : Slot) (s : State) : State := { s with erase := { s.erase with slots := ⟨x, .idle⟩ } }

/-- A read cycle and a write cycle on both lanes of word address 0. -/
def readCycle : HeldCycle := ⟨⟨0, true, true, .read⟩, 49, false⟩
def writeCycle : HeldCycle := ⟨⟨0, true, true, .write 0x1234⟩, 49, false⟩

/-- A state with a spare pool and an erase queue. -/
def withPool (pool : List Phys) (queue : List EraseRecord) (s : State) : State :=
  { s with acct := { s.acct with pool := pool, eraseQueue := queue } }

/-- A state with the state and the waiting requests of die 0. -/
def withDie0 (st : DieState) (ws : List Request) (s : State) : State :=
  { s with dies := ⟨{ idleDie with state := st, waiting := ws }, idleDie⟩ }

/-- An erase start of physical sector 7. -/
def startReq : Request := ⟨.eraseSlot, .eraseSector 7, 0⟩

/-! ### Single steps of the worked examples -/

/-- Section 1.10, time 0: hex 1234 at word address 65,600 opens an entry for line 4100 with hex 34 at
position 0 and hex 12 at position 1. -/
theorem test_write_opens_entry :
    (match exec (.hostWrite 65600 0x1234 true true) run with
      | .next t => t.wmb.entries.map fun e => (e.line.val, e.held.take 3)
      | _ => []) = [(4100, [some 0x34, some 0x12, none])] := by decide +kernel

/-- Section 1.10, time 300: only HBH# asserted, so position 3 alone is merged. -/
theorem test_high_lane_alone :
    (match exec (.hostWrite 65601 0x5678 false true) { run with wmb := one 4100 (.opened 300) } with
      | .next t => t.wmb.entries.map fun e => e.held.take 4
      | _ => []) = [[some 0x34, some 0x12, none, some 0x56]] := by decide +kernel

/-- Section 1.10, time 750: the newer entry's bytes are read. -/
theorem test_overlay_reads_newest :
    (match exec (.hostRead 65600 true true) { run with wmb := buffer [entry 4100 57 (.sealed 34),
        { entry 4100 59 (.opened 0) with held := [some 0xBC, some 0x9A] ++ List.replicate 30 none }] } with
      | .next t => hd t
      | _ => none) = some 0x9ABC := by decide +kernel

/-- The region table of section 9.8. -/
def regions98 : State := { run with regions := [(0, ⟨0, 15, .readOnly, true, true⟩),
  (1, ⟨16, 31, .clearOnly, true, false⟩), (2, ⟨0, 63, .noAccess, false, false⟩),
  (3, ⟨8, 47, .noAccess, true, false⟩)] }

/-- The lookups of section 9.8: pages 4, 10, 20, 40, 50. -/
theorem test_lookups :
    ([4, 10, 20, 40, 50] : List Page).map (governing regions98) =
      [some 0, some 0, some 1, some 3, none] := by decide +kernel

/-- Section 9.8: a host read of word address 81,920 returns hex FFFF with a REGION READ record for line
5120 and region 3. -/
theorem test_no_access_read :
    (match exec (.hostRead 81920 true true) regions98 with
      | .next t => (hd t, t.link.faults.map (·.body))
      | _ => (none, [])) = (some 0xFFFF, [.regionRead 5120 3]) := by decide +kernel

/-- Section 9.8: a WRITE REGION on the frozen entry 0 is refused FROZEN. -/
theorem test_frozen_refused :
    (match exec (.writeRegion 0 0 15 0 1) regions98 with
      | .next t => t.link.response.take 1
      | _ => []) = [0x12] := by decide +kernel

/-- R102: another request came first, so the start waits behind it with the slot in ERASING and the
sector in ERASING. -/
theorem test_erase_start_waits :
    (match exec (.eraseStart .die0) (withPool [] [⟨7, 41⟩] (withDie (.reading (readReq .lane) 0) run)) with
      | .next t => (t.dies.die0.waiting.map (·.op), t.erase.slots.die0.code, membershipOf t 7)
      | _ => ([], 0, none)) = ([.eraseSector 7], 1, some .erasing) := by decide +kernel

/-- R160: in STARTING a cycle without a lane is held like any, with HRDY low. -/
theorem test_starting_holds_every_cycle :
    (match exec (.hostRead 0 false false) (at_ .starting) with
      | .next t => hrdy t
      | _ => true) = false := by decide +kernel

/-- R41: a sealing in FAILED leaves the map and the relocation queue as they are. -/
theorem test_failed_keeps_map :
    (match exec .flushFallingEdge { at_ .failed with wmb := one 0 (.opened 5) } with
      | .next t => (t.map, t.reloc.queue)
      | _ => ([(0, MapEntry.unbacked)], [])) = ([], []) := by decide +kernel

/-- A tag of 64 bytes holding fields. -/
def tagOf (fs : List TagContents) : List Byte :=
  (List.range 64).map fun i => (fs.findSome? fun c =>
    if c.field.offset ≤ i then (c.bytes)[i - c.field.offset]? else none).getD 0xFF

/-- Section 3.9: physical sector 612 through its cycle, as the scan would classify it. -/
theorem test_tag_before_erase : (classifyTag (tagOf [.sealing 300, .claim 5 300, .count 41])).candidate =
    some (5, 300) := by decide +kernel

theorem test_tag_counted : (classifyTag (tagOf [.count 42])).kind = .spare := by decide +kernel

theorem test_tag_released :
    classifyTag (tagOf [.release 1000, .sealing 1000, .claim 9 1000, .count 42]) =
      ⟨.eraseQueue, none, false⟩ := by decide +kernel

/-- Section 10.5: the torn COUNT of physical sector 701 is garbled. -/
theorem test_tag_garbled : classifyTag ([0x00, 0x00, 0x0C, 0xFF] ++ List.replicate 60 0xFF) =
    ⟨.eraseQueue, none, true⟩ := by decide +kernel

/-! ### States that meet the statements' hypotheses -/

/-- A WMB without entries. -/
theorem orderly_empty : WmbOrderly (buffer []) :=
  ⟨by decide, by decide, by decide, by decide, by decide, by decide, by decide, by decide,
    fun _ h => by cases h⟩

/-- A WMB with one entry, in any of its stages. -/
theorem orderly_one (line : LineNo) : WmbOrderly (one line (.opened 1999)) ∧
    WmbOrderly (one line (.sealed 59)) ∧ WmbOrderly (one line (.committing 59 (.lane .die0))) ∧
    WmbOrderly (one line (.committing 59 .fold)) := by
  refine ⟨?_, ?_, ?_, ?_⟩ <;>
    exact ⟨by simp [one, buffer, wmbSize], by simp [one, buffer, entry, highWater, Entry.isOpen],
      by simp [one, buffer], by simp [one, buffer, entry],
      by simp [one, buffer, entry, Entry.isOpen, Entry.sealOrder],
      by simp [one, buffer, entry, Entry.isOpen, List.filter], by simp [one, buffer, entry, twoBytes],
      fun e h _ => by rw [List.mem_singleton.1 h]; exact (by decide : fullMask twoBytes = false),
      fun _ h => by cases h⟩

/-- The tables of a state that lists nothing but the binding of sector 0. -/
theorem canonical_bound : TablesCanonical { run with map := bound MapEntry.unbacked } :=
  ⟨by decide, by decide, by decide, by decide, by decide, by decide⟩

/-- The tables right after POR. -/
theorem canonical_reset : TablesCanonical State.reset :=
  ⟨by decide, by decide, by decide, by decide, by decide, by decide⟩

theorem quiet_reset : StartingQuiet State.reset :=
  ⟨fun _ => by decide, fun _ => by decide, fun _ => by decide, fun _ => by decide⟩

theorem takes_idle (s : State) (h : s.host.port = .idle) : portTakes s := fun who ask h' => by
  rw [h] at h'; cases h'

/-! ### A witness for each statement with hypotheses -/

/-- A command waits; none does with nothing due, and with a flush boundary whose entries are gone. -/
theorem witness_StepRunsFront : ({ run with pending := [.status] } : State).pending = [.status] ∧
    run.pending = [] ∧ due run = none ∧
    due { run with wmb := { buffer [] with boundary := some 60 } } = some .flushDrain :=
  ⟨rfl, rfl, rfl, rfl⟩

theorem witness_ExecLeavesQueue : ∃ t, exec .status run = .next t := ⟨_, rfl⟩

theorem witness_StepKeepsTablesCanonical :
    TablesCanonical State.reset ∧ ∃ t, step State.reset = .next t := ⟨canonical_reset, _, rfl⟩

theorem witness_StepKeepsWmbOrderly :
    WmbOrderly { run with wmb := buffer [] }.wmb ∧
      ∃ t, step { run with wmb := buffer [] } = .next t := ⟨orderly_empty, _, rfl⟩

theorem witness_StepKeepsBounds :
    PausesBounded State.reset ∧ RegionsOrdered State.reset ∧ LinkBounded State.reset ∧
      ∃ t, step State.reset = .next t :=
  ⟨⟨trivial, trivial⟩, by unfold RegionsOrdered; decide, by unfold LinkBounded; decide, _, rfl⟩

theorem witness_StepKeepsStartingQuiet :
    StartingQuiet State.reset ∧ ∃ t, step State.reset = .next t := ⟨quiet_reset, _, rfl⟩

/-- A die that is not in RESETTING and one that is. -/
theorem witness_FailedDoesNoWork : isReset .status = false ∧ (at_ .failed).power.op = .failed ∧
    (∃ t, exec .status (at_ .failed) = .next t) ∧
    (∀ cause time answered, ((withDie (.erasing erasing) (at_ .failed)).dies.get .die0).state ≠
      .resetting cause time answered) ∧
    ∃ t, exec (.dieReadyAfterReset .die0)
        (withDie (.resetting .partReset 999 false) (at_ .failed)) = .next t ∧
      (t.dies.get .die0).state = .resetting .partReset 999 true :=
  ⟨rfl, rfl, ⟨_, rfl⟩, nofun, _, rfl, rfl⟩

theorem witness_ResetAloneRestarts : isReset .status = false ∧ State.reset.power.op = .starting ∧
    (∃ t, exec .status State.reset = .next t) ∧
    { run with power := { run.power with degraded := some .generation } }.power.degraded =
      some .generation := ⟨rfl, rfl, ⟨_, rfl⟩, rfl⟩

theorem witness_FrozenRegionStays : (regionAt regions98 0).frozen = true ∧
    (Instr.rstAsserted ≠ .por) ∧ ∃ t, exec .rstAsserted regions98 = .next t :=
  ⟨by decide +kernel, by decide, _, rfl⟩

theorem witness_BindingChangesOnlyThen : mayRebind .flushFallingEdge = false ∧
    ∃ t, exec .flushFallingEdge { run with map := bound MapEntry.unbacked } = .next t :=
  ⟨rfl, _, rfl⟩

/-- A part with sector 0 bound to physical sector 5 and one spare. -/
def accounted : State :=
  { withPool [7] [] run with
    wmb := buffer [], map := bound MapEntry.unbacked
    acct := { (withPool [7] [] run).acct with recs := [(5, ⟨.mapped, 3⟩), (7, ⟨.spare, 2⟩)] } }

theorem member_accounted (p : Phys) : membershipOf accounted p =
    if p = 5 then some .mapped else if p = 7 then some .spare else none := by
  revert p; decide +kernel

theorem bound_accounted (l : Sector) : boundPhys accounted l = if l = 0 then some 5 else none := by
  revert l; decide +kernel

theorem accounted_accounted : SectorsAccounted accounted := by
  refine ⟨⟨fun p => ?_, by decide, fun p => ?_, by decide, nofun, fun p => ?_, by decide,
      fun p => ?_, fun l l' p h h' => ?_, fun p => ?_, fun p => ?_, fun d i h => ?_⟩,
    ⟨nofun, nofun, by decide, nofun, nofun, fun d id h => ?_⟩,
    ⟨nofun, fun p => ⟨fun ⟨_, _, h, _⟩ => (by cases h), fun ⟨_, h⟩ => (by cases h)⟩,
      fun _ _ _ _ h => (by cases h), fun d => .inl (by cases d <;> rfl), fun _ _ _ _ => rfl⟩⟩
  all_goals try rw [member_accounted]
  · simp only [accounted, withPool, List.mem_singleton]; split <;> simp_all
  · constructor
    · rintro ⟨_, h⟩; cases h
    · intro h; split at h <;> [cases h; (split at h <;> cases h)]
  · constructor
    · rintro ⟨_, h⟩; cases h
    · intro h; split at h <;> [cases h; (split at h <;> cases h)]
  · constructor
    · rintro ⟨l, h⟩; rw [bound_accounted] at h; split at h <;> cases h; rfl
    · intro h; refine ⟨0, ?_⟩; rw [bound_accounted]
      split at h
      · simp_all
      · split at h <;> cases h
  · rw [bound_accounted] at h h'
    split at h <;> split at h' <;> simp_all
  · constructor
    · intro h; cases h
    · intro h; split at h <;> [cases h; (split at h <;> cases h)]
  · constructor
    · rintro ⟨d, i, h, _⟩; cases d <;> cases h
    · intro h; split at h <;> [cases h; (split at h <;> cases h)]
  · cases d <;> cases h
  · rcases h with ⟨p, h⟩ | ⟨p, m, t, h⟩ <;> cases d <;> cases h

/-- The sets keep a MAPPED sector; a part whose accounting is sound takes a step. -/
theorem witness_SetsLoseNoSector :
    (isReset .relocationTake = false ∧ Instr.relocationTake ≠ .scanEnd ∧
      (membershipOf accounted 5).isSome ∧ ∃ t, exec .relocationTake accounted = .next t) ∧
    TablesCanonical accounted ∧ WmbOrderly accounted.wmb ∧ StartingQuiet accounted ∧
    SectorsAccounted accounted ∧ ∃ t, step accounted = .next t :=
  ⟨⟨rfl, by decide, by decide, _, rfl⟩,
    ⟨by decide, by decide, by decide, by decide, by decide, by decide⟩, orderly_empty,
    ⟨nofun, nofun, nofun, nofun⟩, accounted_accounted, _, rfl⟩

theorem witness_CountersOnlyRise : isReset .status = false ∧ ¬ clearsCounters .status ∧
    ∃ t, exec .status run = .next t :=
  ⟨rfl, (by unfold clearsCounters; rintro (h | ⟨b, h, _⟩) <;> cases h), _, rfl⟩

/-- A command with a frame; contents in range at both ends; a field blank, and one that no contents
spell. -/
theorem witness_FrameRoundTrip : encodeFrame .status = some [0x01, 0x00, 0xC2] ∧
    (1 ≤ (1 : Gen).toNat ∧ (0xFFFFFFFE : Gen).toNat ≤ 0xFFFFFFFE) ∧
    (([0xFF, 0xFF, 0xFF, 0xFF] : List Byte).length = TagField.count.length ∧
      ∀ b ∈ ([0xFF, 0xFF, 0xFF, 0xFF] : List Byte), b = 0xFF#8) ∧
    (([0, 0, 0] : List Byte).length = TagField.retire.length ∧
      (∃ b ∈ ([0, 0, 0] : List Byte), b ≠ 0xFF#8) ∧
      ∀ c : TagContents, c.field = .retire → ([0, 0, 0] : List Byte) ≠ c.bytes) := by
  refine ⟨by decide +kernel, by decide, by decide, by decide, by decide, fun c h => ?_⟩
  cases c with
  | retire why => cases why <;> decide +kernel
  | _ => cases h

theorem witness_MediumChangesUnderWork : untouched run 0 ∧ ∃ t, exec .status run = .next t := by
  refine ⟨?_, _, rfl⟩
  rintro p ⟨d, ⟨r, h, _⟩ | ⟨r, h, _⟩ | ⟨i, h, _⟩⟩ <;> cases d <;> cases h

/-- The first statement at an OPEN entry of an UNBACKED sector; the table at each relocation field. -/
theorem witness_SealingQueuesItsSector :
    (WmbOrderly (one 0 (.opened 1999)) ∧ entry 0 0 (.opened 1999) ∈ (one 0 (.opened 1999)).entries ∧
      (entry 0 0 (.opened 1999)).isOpen = true) ∧
    (mapEntry run 0).reloc = .absent ∧
    (mapEntry { run with map := [(0, { MapEntry.unbacked with reloc := .queued .backing })] } 0).reloc =
      .queued .backing ∧
    (mapEntry { run with map := [(0, { MapEntry.unbacked with reloc := .queued .failure })] } 0).reloc =
      .queued .failure ∧
    (mapEntry { run with map := [(0, { MapEntry.unbacked with reloc := .inFlight none false })] }
      0).reloc = .inFlight none false :=
  ⟨⟨(orderly_one 0).1, by decide, by decide⟩, by decide, by decide, by decide, by decide⟩

/-- A queue of 15 records takes another; a queue of 16 drops it. -/
theorem witness_RecordsAndCounters :
    (List.replicate 15 (FaultRecord.mk 0 (.eraseFail 7))).length < 16 ∧
    16 ≤ (List.replicate 16 (FaultRecord.mk 0 (.eraseFail 7))).length := by decide

theorem witness_OverlayIsNewestByte :
    WmbOrderly (one 0 (.sealed 59)) ∧
    (∀ x ∈ (one 0 (.sealed 59)).entries, x.line = 0 → 0 < x.openOrder → heldByte x.held 0 = none) ∧
    heldByte (entry 0 0 (.sealed 59)).held 0 = some 0x34 ∧
    ∀ e ∈ (one 0 (.sealed 59)).entries, e.line = 0 → heldByte e.held 2 = none :=
  ⟨(orderly_one 0).2.1, by decide, by decide, by decide⟩

/-- FAILED; an offline die; an abandonment waiting and none; each die state, each kind of request
chosen, and none; each operation. -/
theorem witness_SchedulersChooseInOrder :
    (at_ .failed).power.op = .failed ∧
    ({ idleDie with offline := true } : Die).offline = true ∧
    (∀ run', ¬ ((run.dies.get .die0).state = .held run' true ∧ (run.dies.get .die0).offline = false)) ∧
    (run.power.op ≠ .failed ∧ (run.dies.get .die0).offline = false) ∧
    (run.dies.get .die0).state = .idle ∧
    firstOf Request.isHostRead [readReq .lane, readReq .hostPort] (readReq .hostPort)
      [readReq .lane] ∧
    ([readReq .lane].any Request.isHostRead = false ∧
      firstOf Request.isInternal [startReq, readReq .lane] (readReq .lane) [startReq]) ∧
    ([startReq].any Request.isHostRead = false ∧ [startReq].any Request.isInternal = false ∧
      firstOf Request.isEraseStart [startReq] startReq []) ∧
    (run.dies.get .die0).waiting.any Request.isEraseStart = false ∧
    (firstOf (fun r => r.isInternal && r.op.isRead) [tagReq .lane 5 (.count 1), readReq .lane]
        (readReq .lane) [tagReq .lane 5 (.count 1)] ∧
      [tagReq .lane 5 (.count 1)].any (fun r => r.isInternal && r.op.isRead) = false) ∧
    ((withDie (.held erasing false) run).dies.get .die0).state = .held erasing false ∧
    ((withDie (.held erasing true) run).dies.get .die0).state = .held erasing true ∧
    (((withDie0 (.erasing { erasing with progress := 400 }) [readReq .hostPort] run).dies.get
        .die0).waiting.any Request.isHostRead = true ∧ 400 ≤ { erasing with progress := 400 }.progress ∧
      { erasing with progress := 400 }.pauses < 48) ∧
    (erasing.progress < 400 ∧ 48 ≤ { erasing with pauses := 48 }.pauses) ∧
    ((State.reset.dies.get .die0).state ≠ .idle ∧ ∀ r, (State.reset.dies.get .die0).state ≠ .erasing r ∧
      ∀ a, (State.reset.dies.get .die0).state ≠ .held r a) ∧
    ([.readLine 5 0, .readTag 5, .programLine 5 0 blankLine, .programTag 5 (.count 1),
      .eraseSector 5] : List DieOp).map (fun op => (Request.mk .lane op 0).op) =
      [.readLine 5 0, .readTag 5, .programLine 5 0 blankLine, .programTag 5 (.count 1),
        .eraseSector 5] :=
  ⟨rfl, rfl, nofun, ⟨by decide, by decide⟩, rfl,
    ⟨[readReq .lane], [], by decide, by decide, by decide, by decide⟩,
    ⟨by decide, [startReq], [], by decide, by decide, by decide, by decide⟩,
    ⟨by decide, by decide, [], [], by decide, by decide, by decide, by decide⟩, by decide,
    ⟨⟨[tagReq .lane 5 (.count 1)], [], by decide, by decide, by decide, by decide⟩, by decide⟩,
    rfl, rfl, by decide, by decide, ⟨by decide, fun _ => ⟨nofun, nofun⟩⟩, rfl⟩

/-- A held cycle 1 µs short of the threshold, one counted, none; each state of the port and of a die
with one; FAILED; an entry that is OPEN, 1 µs short, and one that is not. -/
theorem witness_TimeCountsToItsLimits :
    heldCycle run = none ∧ heldCycle (withPort (.writing writeCycle) run) = some writeCycle ∧
    (writeCycle.counted = false ∧ writeCycle.stall + 1 = run.host.threshold.toNat) ∧
    heldCycle (withPort (.writing { writeCycle with counted := true }) run) =
      some { writeCycle with counted := true } ∧
    (∀ ask, heldCycle (withPort (.reading (.cycle readCycle) ask) run) = some readCycle ∧
      heldCycle (withPort (.reading (.abandoned (some readCycle)) ask) run) = some readCycle) ∧
    heldCycle (withPort (.holding readCycle) run) = some readCycle ∧
    (∀ st, ((withDie st run).dies.get .die0).state = st ∧
      ((withDie st (at_ .failed)).dies.get .die0).state = st) ∧
    ((at_ .failed).power.op = .failed ∧ run.power.op ≠ .failed) ∧
    (WmbOrderly (one 0 (.opened 1999)) ∧ entry 0 0 (.opened 1999) ∈ (one 0 (.opened 1999)).entries) ∧
    (entry 0 0 (.sealed 59)).isOpen = false ∧
    ∀ e ∈ (one 0 (.opened 1999)).entries, e.isOpen = true → e.line ≠ 1 :=
  ⟨rfl, rfl, by decide, rfl, fun _ => ⟨rfl, rfl⟩, rfl, fun _ => ⟨rfl, rfl⟩, by decide,
    ⟨(orderly_one 0).1, by decide⟩, rfl, by decide⟩

/-- The last generation and the one before; pools of none, one and two spares for either class. -/
theorem witness_TargetChoiceInOrder :
    { run.reloc with generation := some 0xFFFFFFFF#32 }.generation = some 0xFFFFFFFF#32 ∧
    (0xFFFFFFFE#32 : Gen) ≠ 0xFFFFFFFF#32 ∧
    ((withPool [7] [] run).acct.pool = [7] ∧ (job .failure).reason = .failure) ∧
    ((withPool [7, 8] [] run).acct.pool = [7, 8] ∧ ([8] : List Phys) ≠ []) ∧
    ((withPool [7] [] run).acct.pool = [7] ∧ (job .overwrite).reason ≠ .failure ∧
      (withPool [7] [] run).acct.eraseQueue = [] ∧
      ∀ c ∈ (withPool [7] [] run).acct.recs, c.2.membership ≠ .erasing) ∧
    ((withPool [] [⟨9, 0⟩] run).acct.pool = [] ∧ (withPool [] [⟨9, 0⟩] run).acct.eraseQueue ≠ []) := by
  decide

/-- With entries discarded and again staged, DEGRADED clear and set, a write held and none. -/
theorem witness_AbandonmentGivesUp :
    (∃ x ∈ (abandon (job .backing) none { run with wmb := buffer [entry 0 0 (.committing 0 .fold),
        entry 0 1 (.sealed 1)] }).wmb.entries, x.isSealed = true ∧ x.sector = 0) ∧
    (mapEntry run 0).binding = none ∧ (mapEntry run 0).releasing = false ∧
    (mapEntry { run with map := bound MapEntry.unbacked } 0).binding ≠ none ∧
    run.power.degraded = none ∧ (withPort (.writing writeCycle) run).host.port = .writing writeCycle ∧
    { run with power := { run.power with degraded := some .spares } }.power.degraded ≠ none := by
  decide +kernel

/-- Position 2047 with a source; without one a line at position 0, and none; past the last line. -/
theorem witness_CopyTakesNextLine :
    (job .overwrite).source = some 5 ∧ { job .backing with source := none }.source = none ∧
    layFolded { run with wmb := one 0 (.committing 59 .fold) } (lineAt 0 0) blankLine ≠ blankLine ∧
    (∀ x : Pos, 2047 ≤ x.val → layFolded run (lineAt 0 x) blankLine = blankLine) ∧
    WmbOrderly (one 0 (.committing 59 .fold)) ∧
    heldByte (entry 0 0 (.committing 59 .fold)).held 1 = some 0x12 ∧
    ∀ e ∈ foldedList { run with wmb := one 0 (.committing 59 .fold) }, e.line = 0 →
      heldByte e.held 31 = none :=
  ⟨rfl, rfl, by decide +kernel, fun _ _ => rfl, (orderly_one 0).2.2.2, by decide, by decide +kernel⟩

theorem witness_MediumTakesOperations : Memory.wf [] ∧
    (∃ a want, DieOp.image (.programTag 1055 (.count 1)) = some (a, want)) ∧
    (∃ a want, DieOp.image (.programLine 0 2047 blankLine) = some (a, want)) ∧
    inSector 1055 (1055 * 65600 + 65599) = true ∧ inSector 1055 (1056 * 65600) = false :=
  ⟨by decide, ⟨_, _, rfl⟩, ⟨_, _, rfl⟩, by decide, by decide⟩

/-- A byte under no work; each work that a cut changes, and none. -/
theorem witness_PorGivesItsValues : untouched run 0 ∧
    (∀ st, ((withDie st run).dies.get .die0).state = st) ∧
    (∀ r time, (run.dies.get .die0).state ≠ .programming r time) ∧
    ∀ r, ¬ ((run.dies.get .die0).state = .erasing r ∨
      (∃ abandon, (run.dies.get .die0).state = .held r abandon) ∨
      (∃ x abandon time, (run.dies.get .die0).state = .heldReading r x abandon time) ∨
      ∃ p abandon time, (run.dies.get .die0).state = .pausing p (some r) abandon time) :=
  ⟨witness_MediumChangesUnderWork.1, fun _ => rfl, nofun, fun r h => by
    rcases h with h | ⟨_, h⟩ | ⟨_, _, _, h⟩ | ⟨_, _, _, h⟩ <;> cases h⟩

/-- A frozen and an unfrozen region; each state of the port. -/
theorem witness_RstKeepsItsSettings :
    TablesCanonical regions98 ∧ (regionAt regions98 0).frozen = true ∧
    (regionAt regions98 3).frozen = false ∧ run.host.port = .idle ∧
    heldCycle (withPort (.holding readCycle) run) = some readCycle ∧
    (withPort (.completed readCycle.cycle none) run).host.port = .completed readCycle.cycle none ∧
    (withPort (.inReset readCycle.cycle) run).host.port = .inReset readCycle.cycle ∧
    (withPort (.reading (.abandoned none) ⟨5, 0, none, none⟩) run).host.port =
      .reading (.abandoned none) ⟨5, 0, none, none⟩ :=
  ⟨⟨by decide, by decide, by decide, by decide, by decide, by decide⟩, by decide +kernel,
    by decide +kernel, rfl, rfl, rfl, rfl, rfl⟩

/-- RST# released and asserted, in STARTING and in FAILED, with and without a cycle, a die ready and
not; READY awaited and not. -/
theorem witness_ScanBeginsOnReadyDies :
    run.power.rst = false ∧
    ({ at_ .starting with power := { (at_ .starting).power with rst := true } } : State).power =
      { op := .starting, degraded := none, pfail := false, rst := true } ∧
    ({ at_ .failed with power := { (at_ .failed).power with rst := true } } : State).power =
      { op := .failed, degraded := none, pfail := false, rst := true } ∧
    (withPort (.inReset readCycle.cycle) run).host.port = .inReset readCycle.cycle ∧
    readCycle.cycle.low = true ∧
    (withPort (.inReset ⟨0, false, false, .read⟩) run).host.port = .inReset ⟨0, false, false, .read⟩ ∧
    (∀ c, run.host.port ≠ .inReset c) ∧
    ((run.dies.get .die0).state = .idle ∧ run.scan.progress.get .die0 = .waiting) ∧
    (State.reset.dies.get .die1).state ≠ .idle ∧
    ((State.reset.dies.get .die0).state = .resetting .partReset 0 false ∧
      (State.reset.dies.get .die0).offline = false ∧ State.reset.power.op = .starting ∧
      readCycle.cycle.kind = .read ∧ writeCycle.cycle.kind ≠ .read ∧
      State.reset.power.rst = false ∧ State.reset.scan.progress.get .die0 = .waiting) ∧
    ((withDie (.resetting .partReset 999 false) (at_ .failed)).dies.get .die0).state =
      .resetting .partReset 999 false ∧
    ((withDie (.resetting .partReset 999 false) run).power.op ≠ .failed ∧
      (withDie (.resetting .partReset 999 false) run).power.op ≠ .starting) ∧
    ∀ time, (run.dies.get .die0).state ≠ .resetting .partReset time false :=
  ⟨rfl, rfl, rfl, rfl, rfl, rfl, nofun, by decide, by decide, by decide, rfl, by decide, nofun⟩

/-- In another state; in RUNNING with the slot IDLE, its start waiting, and its erase in each state of
the die. -/
theorem witness_PfailEntersPowerdown :
    (at_ .powerdown).power.op ≠ .running ∧
    (run.power.op = .running ∧ WmbOrderly { run with wmb := one 0 (.opened 1999) }.wmb) ∧
    (∀ i, run.erase.slots.get .die0 ≠ .erasing i) ∧
    ((withSlot (.erasing items) run).erase.slots.get .die0 = .erasing items ∧
      ((withDie0 .idle [startReq] run).dies.get .die0).startWaits = true ∧
      ((withDie (.erasing erasing) run).dies.get .die0).startWaits = false) ∧
    ((withDie (.erasing erasing) run).dies.get .die0).state = .erasing erasing ∧
    ((withDie (.held erasing false) run).dies.get .die0).state = .held erasing false ∧
    ((withDie (.pausing 7 (some erasing) false 99) run).dies.get .die0).state =
      .pausing 7 (some erasing) false 99 ∧
    ((withDie (.heldReading erasing (readReq .lane) false 19) run).dies.get .die0).state =
      .heldReading erasing (readReq .lane) false 19 :=
  ⟨by decide, ⟨rfl, (orderly_one 0).1⟩, nofun, ⟨rfl, by decide, by decide⟩, rfl, rfl, rfl, rfl⟩

/-- In another state; in POWERDOWN with a fold pending, a wait without and with a folded list. -/
theorem witness_PfailReleaseReturns :
    run.power.op ≠ .powerdown ∧ (at_ .powerdown).power.op = .powerdown ∧
    (withEngine (.claiming (job .overwrite) 9 1 true) (at_ .powerdown)).reloc.engine =
      .claiming (job .overwrite) 9 1 true ∧
    ((withEngine (.awaitingSpare (job .overwrite)) (at_ .powerdown)).reloc.engine =
      .awaitingSpare (job .overwrite) ∧ foldedList (at_ .running) = []) ∧
    foldedList { run with wmb := one 0 (.committing 59 .fold) } ≠ [] ∧
    (∀ j t g, (at_ .powerdown).reloc.engine ≠ .claiming j t g true) ∧
    ∀ j, (at_ .powerdown).reloc.engine ≠ .awaitingSpare j :=
  ⟨by decide, rfl, rfl, ⟨rfl, rfl⟩, by decide, nofun, nofun⟩

/-- An OPEN entry of an UNBACKED sector; no entry; a boundary with its entry below it and at it; the
last long command a FLUSH and none. -/
theorem witness_FlushSealsAndWaits :
    WmbOrderly (one 0 (.opened 1999)) ∧ WmbOrderly (buffer []) ∧
    (entry 0 0 (.opened 1999) ∈ (one 0 (.opened 1999)).entries ∧
      (mapEntry run (entry 0 0 (.opened 1999)).sector).binding = none ∧
      (mapEntry run (entry 0 0 (.opened 1999)).sector).reloc = .absent) ∧
    (run.power.op = .running ∧ commandInProgress run = false ∧ run.wmb.entries = [] ∧
      (one 0 (.opened 1999)).entries ≠ [] ∧ (at_ .failed).power.op = .failed) ∧
    (∃ e ∈ (one 0 (.sealed 59)).entries, e.openOrder < 1) ∧
    (∀ e ∈ (one 0 (.sealed 59)).entries, 0 ≤ e.openOrder) ∧
    { run.link with lastLong := some ⟨.flush, false⟩ }.lastLong = some ⟨.flush, false⟩ ∧
    run.link.lastLong ≠ some ⟨.flush, false⟩ ∧ run.wmb.boundary = none :=
  ⟨(orderly_one 0).1, orderly_empty, ⟨by decide, by decide, by decide⟩,
    ⟨rfl, rfl, rfl, by decide, rfl⟩, by decide, fun _ _ => Nat.zero_le _, rfl, by decide, rfl⟩

/-- A WMB of `n` SEALED entries of line 0 and one entry of line 1. -/
def many (n : Nat) (st : Stage) : Wmb :=
  buffer ((List.range n).map (fun i => entry 0 i (.sealed i)) ++ [entry 1 n st])

theorem orderly_many : (∀ n ∈ [21, 22, 30, 31], WmbOrderly (many n (.opened 0))) ∧
    WmbOrderly (many 22 (.sealed 59)) :=
  ⟨fun n h => ⟨by revert n; decide +kernel, by revert n; decide +kernel, by revert n; decide +kernel,
      by revert n; decide +kernel, by revert n; decide +kernel, by revert n; decide +kernel,
      by revert n; decide +kernel, by revert n; decide +kernel, fun _ h => by cases h⟩,
    by decide +kernel, by decide +kernel, by decide +kernel, by decide +kernel, by decide +kernel,
    by decide +kernel, by decide +kernel, by decide +kernel, fun _ h => by cases h⟩

/-- 22, 23, 31 and 32 entries; an OPEN entry of the line and none; an oldest OPEN entry, and with a
commit delay of 0 no OPEN entry after the opening. -/
theorem witness_WmbTakesWrites :
    (∀ n ∈ [21, 22, 30, 31], WmbOrderly (many n (.opened 0))) ∧
    (entry 1 21 (.opened 0) ∈ (many 21 (.opened 0)).entries ∧ (entry 1 21 (.opened 0)).line = 1) ∧
    (∀ e ∈ (many 31 (.opened 0)).entries, e.isOpen = true → e.line ≠ 2) ∧
    (many 31 (.opened 0)).entries.length = 32 ∧ (many 21 (.opened 0)).entries.length < 23 ∧
    (23 ≤ (many 22 (.opened 0)).entries.length ∧ (many 30 (.opened 0)).entries.length < 32) ∧
    (∀ x ∈ (many 22 (.opened 0)).entries, x.isOpen = true → 22 ≤ x.openOrder) ∧
    (WmbOrderly (many 22 (.sealed 59)) ∧ ∀ o ∈ (sealEntry 60 { run with wmb := { many 22 (.sealed 59) with
      entries := (many 22 (.sealed 59)).entries ++ [entry 2 60 (.opened 0)], openCounter := 61
      commitDelay := 0 } }).wmb.entries, o.isOpen = false) ∧
    (0 < 32 ∧ 31 < 32) :=
  ⟨orderly_many.1, by decide +kernel, by decide +kernel, by decide +kernel, by decide +kernel,
    by decide +kernel, by decide +kernel, ⟨orderly_many.2, by decide +kernel⟩, by decide⟩

/-- A state with one region, of page 0. -/
def region0 (m : Mode) (s : State) : State := { s with regions := [(0, ⟨0, 0, m, true, false⟩)] }

theorem port_takes_run : portTakes run := takes_idle run rfl

/-- Under RST#, behind a read, in each operating state, in a NO-ACCESS region at its last word,
UNBACKED, and covered by the overlay. -/
theorem witness_HostReadAnsweredAtOnce :
    { run.power with rst := true }.rst = true ∧ run.power.rst = false ∧ portTakes run ∧
    (withPort (.reading (.abandoned none) ⟨5, 0, none, none⟩) run).host.port =
      .reading (.abandoned none) ⟨5, 0, none, none⟩ ∧
    ((at_ .starting).power.op = .starting ∧ portTakes (at_ .starting) ∧
      run.power.op ≠ .starting) ∧ (at_ .failed).power.op = .failed ∧
    (run.power.op = .running ∧ governing (region0 .noAccess run) (pageOf 2047) = some 0 ∧
      (regionAt (region0 .noAccess run) 0).mode = .noAccess) ∧
    (modeAt (region0 .noAccess run) (pageOf 2048) ≠ .noAccess ∧
      (mapEntry run (sectorOf (lineOf 2048))).binding = none) ∧
    (overlayByte { run with wmb := one 0 (.sealed 59) } (lineOf 0) 0 ≠ none ∧
      overlayByte { run with wmb := one 0 (.sealed 59) } (lineOf 0) 1 ≠ none) :=
  ⟨rfl, rfl, port_takes_run, rfl, ⟨rfl, takes_idle _ rfl, by decide⟩, rfl, by decide +kernel,
    by decide +kernel, by decide +kernel⟩

/-- A BACKED sector with the low byte, and the high byte, not covered; a line that returns to a cycle,
to an abandoned read and to one with a cycle behind it. -/
theorem witness_HostReadGoesToMedium :
    (run.power.rst = false ∧ portTakes { run with map := bound MapEntry.unbacked } ∧
      modeAt run (pageOf 0) ≠ .noAccess ∧
      (mapEntry { run with map := bound MapEntry.unbacked } (sectorOf (lineOf 0))).binding =
        some ⟨5, 1⟩ ∧
      (mapEntry { run with map := bound MapEntry.unbacked } (sectorOf (lineOf 0))).releasing = false ∧
      overlayByte run (lineOf 0) 0 = none) ∧
    overlayByte { run with wmb := one 0 (.sealed 59) } (lineOf 1) 3 = none ∧
    (run.power.op ≠ .failed ∧
      ((withDie (.reading (readReq .hostPort) 19) run).dies.get (dieOf 5)).inProgress =
        some (readReq .hostPort)) ∧
    ∀ who, (withPort (.reading who ⟨5, 0, none, none⟩) run).host.port =
      .reading who ⟨5, 0, none, none⟩ :=
  ⟨⟨rfl, takes_idle _ rfl, by decide +kernel, by decide +kernel, by decide +kernel, rfl⟩,
    by decide +kernel, ⟨by decide, rfl⟩, fun _ => rfl⟩

/-- Each refusing mode at a region's last word, each accepting mode, DEGRADED, POWERDOWN, and a write
that the WMB takes and one that it does not. -/
theorem witness_HostWriteMeetsItsChecks :
    { run.power with rst := true }.rst = true ∧ (run.power.rst = false ∧ portTakes run) ∧
    (withPort (.reading (.abandoned none) ⟨5, 0, none, none⟩) run).host.port =
      .reading (.abandoned none) ⟨5, 0, none, none⟩ ∧
    ((at_ .starting).power.op = .starting ∧ portTakes (at_ .starting) ∧
      run.power.op ≠ .starting) ∧ (at_ .failed).power.op = .failed ∧
    (governing (region0 .readOnly run) (pageOf 2047) = some 0 ∧
      (regionAt (region0 .readOnly run) 0).mode = .readOnly ∧
      (regionAt (region0 .noAccess run) 0).mode = .noAccess) ∧
    (modeAt (region0 .readOnly run) (pageOf 2048) = .normal ∧
      modeAt (region0 .clearOnly run) (pageOf 2047) = .clearOnly) ∧
    { run.power with degraded := some .spares }.degraded ≠ none ∧
    ((at_ .powerdown).power.degraded = none ∧ (at_ .powerdown).power.op = .powerdown) ∧
    (presentWrite 2 twoBytes { run with wmb := many 31 (.opened 0) } = none ∧
      (presentWrite 2 twoBytes { run with wmb := many 30 (.opened 0) }).isSome) := by
  refine ⟨rfl, ⟨rfl, port_takes_run⟩, rfl, ⟨rfl, takes_idle _ rfl, by decide⟩, rfl, ?_, ?_, ?_, ?_,
    ?_⟩ <;> decide +kernel

/-- The port in each of its states; a held write outside RUNNING, DEGRADED, taken and not. -/
theorem witness_HeldCyclesGoOnOrEnd :
    (withPort (.completed readCycle.cycle none) run).host.port = .completed readCycle.cycle none ∧
    (∀ c w, run.host.port ≠ .completed c w) ∧ run.host.port = .idle ∧
    (withPort (.holding readCycle) run).host.port = .holding readCycle ∧
    (withPort (.inReset readCycle.cycle) run).host.port = .inReset readCycle.cycle ∧
    (withPort (.reading (.cycle readCycle) ⟨5, 0, none, none⟩) run).host.port =
      .reading (.cycle readCycle) ⟨5, 0, none, none⟩ ∧
    ((withPort (.writing writeCycle) run).host.port = .writing writeCycle ∧
      writeCycle.cycle.kind = .write 0x1234) ∧
    ((at_ .powerdown).power.op ≠ .running ∧ run.power.op = .running) ∧
    (presentWrite 2 twoBytes { run with wmb := many 31 (.opened 0) } = none ∧
      (presentWrite 2 twoBytes { run with wmb := many 30 (.opened 0) }).isSome) :=
  ⟨rfl, nofun, rfl, rfl, rfl, rfl, ⟨rfl, rfl⟩, by decide, by decide +kernel⟩

/-- A BACKED sector's only SEALED entry is the candidate of die 0; without it there is none. -/
theorem witness_LaneTakesOldestCandidate :
    (run.lanes.get .die0 = .idle ∧ run.power.op = .running) ∧
    (run.lanes.set .die0 (.reading 0 5)).get .die0 ≠ .idle ∧
    ((at_ .failed).power.op ≠ .running ∧ (at_ .failed).power.op ≠ .powerdown) ∧
    (∀ e ∈ run.wmb.entries, isCandidate run .die0 e = false) ∧
    WmbOrderly (one 0 (.sealed 59)) ∧
    (entry 0 0 (.sealed 59) ∈ (one 0 (.sealed 59)).entries ∧
      isCandidate { run with wmb := one 0 (.sealed 59), map := bound MapEntry.unbacked } .die0
        (entry 0 0 (.sealed 59)) = true ∧
      (∀ x ∈ (one 0 (.sealed 59)).entries, isCandidate
          { run with wmb := one 0 (.sealed 59), map := bound MapEntry.unbacked } .die0 x = true →
        x ≠ entry 0 0 (.sealed 59) → 59 < x.sealOrder) ∧
      (mapEntry { run with wmb := one 0 (.sealed 59), map := bound MapEntry.unbacked }
        (entry 0 0 (.sealed 59)).sector).binding = some ⟨5, 1⟩) := by
  refine ⟨⟨rfl, rfl⟩, ?_, ?_, ?_, (orderly_one 0).2.1, ?_⟩ <;> decide +kernel

/-- A lane that reads line 0 on a medium. -/
def laneReads (m : Memory) (s : State) : State :=
  withDie (.reading (readReq .lane) 19)
    { s with
      wmb := one 0 (.committing 59 (.lane .die0)), map := bound MapEntry.unbacked
      lanes := ⟨.reading 0 5, .idle⟩, medium := m }

/-- Nothing to program, a program, and a byte of 0 where the host wrote hex 34, in a CLEAR-ONLY
region and in none. -/
theorem witness_LaneReadDecidesTheCommit :
    ((laneReads [] run).power.op ≠ .failed ∧
      ((laneReads [] run).dies.get .die0).inProgress = some (readReq .lane) ∧
      (laneReads [] run).lanes.get .die0 = .reading 0 5) ∧
    WmbOrderly (laneReads [] run).wmb ∧
    entry 0 0 (.committing 59 (.lane .die0)) ∈ (laneReads [] run).wmb.entries ∧
    (let line := Memory.line [(328000, 0x34), (328001, 0x12)] 5 0;
      layOver twoBytes line = line ∧ ∀ i < 32, lineByte (layOver twoBytes line) i &&& ~~~ lineByte line i = 0) ∧
    (let line := Memory.line [] 5 0;
      layOver twoBytes line ≠ line ∧ ∀ i < 32, lineByte (layOver twoBytes line) i &&& ~~~ lineByte line i = 0) ∧
    (let line := Memory.line [(328000, 0)] 5 0;
      ¬ ∀ i < 32, lineByte (layOver twoBytes line) i &&& ~~~ lineByte line i = 0) ∧
    (governing (region0 .clearOnly run) (pageOfLine 127) = some 0 ∧
      (regionAt (region0 .clearOnly run) 0).mode = .clearOnly) ∧
    modeAt (region0 .clearOnly run) (pageOfLine 128) ≠ .clearOnly := by
  refine ⟨⟨by decide, rfl, rfl⟩, (orderly_one 0).2.2.1, ?_, ?_, ?_, ?_, ?_, ?_⟩ <;> decide +kernel

/-- A program of a requester in progress on die 0. -/
def programs (who : Requester) (op : DieOp) (s : State) : State :=
  withDie (.programming ⟨who, op, 0⟩ 999) s

theorem programs_in_progress (who : Requester) (op : DieOp) (s : State) :
    ((programs who op s).dies.get .die0).inProgress = some ⟨who, op, 0⟩ := rfl

theorem witness_LaneProgramEnds :
    (run.power.op ≠ .failed ∧
      ((programs .lane (.programLine 5 2047 blankLine) run).dies.get .die0).inProgress =
        some ⟨.lane, .programLine 5 2047 blankLine, 0⟩) ∧
    WmbOrderly (one 0 (.committing 59 (.lane .die0))) ∧
    entry 0 0 (.committing 59 (.lane .die0)) ∈ (one 0 (.committing 59 (.lane .die0))).entries ∧
    (run.lanes.set .die0 (.programming 0 5 blankLine blankLine)).get .die0 =
      .programming 0 5 blankLine blankLine :=
  ⟨⟨by decide, rfl⟩, (orderly_one 0).2.2.1, by decide, rfl⟩

/-- An engine IDLE and at work, a queue with and without a record, a wait in RUNNING and POWERDOWN. -/
theorem witness_RelocationTakesHead :
    (run.reloc.engine = .idle ∧ run.power.op = .running ∧ run.reloc.queue = []) ∧
    { run.reloc with queue := [⟨1023, .backing⟩] }.queue = [⟨1023, .backing⟩] ∧
    (withEngine (.awaitingSpare (job .failure)) run).reloc.engine ≠ .idle ∧
    (at_ .powerdown).power.op ≠ .running ∧
    (∀ j, run.reloc.engine ≠ .awaitingSpare j) ∧
    (withEngine (.awaitingSpare (job .failure)) (at_ .powerdown)).reloc.engine =
      .awaitingSpare (job .failure) ∧
    foldedList { at_ .powerdown with wmb := one 0 (.committing 59 .fold) } ≠ [] ∧
    foldedList (at_ .powerdown) = [] ∧
    ((at_ .failed).power.op ≠ .running ∧ (at_ .failed).power.op ≠ .powerdown) :=
  ⟨by decide, rfl, by decide, by decide, nofun, rfl, by decide, rfl, by decide⟩

/-- The claim on physical sector 9 in progress, with and without a folded list, in POWERDOWN and in
RUNNING; an entry that folds and one that does not. -/
theorem witness_ClaimEndsInFold :
    (run.power.op ≠ .failed ∧
      (withEngine (.claiming (job .overwrite) 9 1 false) run).reloc.engine =
        .claiming (job .overwrite) 9 1 false ∧
      ((programs .relocation (.programTag 9 (.claim 0 1)) run).dies.get (dieOf 9)).inProgress =
        some ⟨.relocation, .programTag 9 (.claim 0 1), 0⟩) ∧
    foldedList { run with wmb := one 0 (.committing 59 .fold) } ≠ [] ∧
    (foldedList (at_ .powerdown) = [] ∧ (at_ .powerdown).power.op = .powerdown ∧
      run.power.op ≠ .powerdown) ∧
    ((entry 2047 0 (.sealed 59)).stage = .sealed 59 ∧ sectorOf (entry 2047 0 (.sealed 59)).line = 0) ∧
    (entry 0 0 (.opened 0)).isSealed = false ∧ sectorOf (entry 2048 0 (.sealed 59)).line ≠ 0 :=
  ⟨⟨by decide, rfl, rfl⟩, by decide, by decide, by decide, rfl, by decide⟩

/-- A source line in progress, all hex FF and not; a copy program at the last position. -/
theorem witness_CopyProgramsItsLines :
    (run.power.op ≠ .failed ∧
      (withEngine (.copying (job .overwrite) 9 1 2047) run).reloc.engine =
        .copying (job .overwrite) 9 1 2047 ∧ (job .overwrite).source = some 5) ∧
    ((withDie (.reading (readReq .relocation) 19) run).dies.get (dieOf 5)).inProgress =
      some (readReq .relocation) ∧
    layFolded run (lineAt 0 2047) (Memory.line [] 5 2047) = blankLine ∧
    layFolded run (lineAt 0 2047) (Memory.line [(393535, 0)] 5 2047) ≠ blankLine ∧
    ((programs .relocation (.programLine 9 2047 blankLine) run).dies.get (dieOf 9)).inProgress =
      some ⟨.relocation, .programLine 9 2047 blankLine, 0⟩ :=
  ⟨⟨by decide, rfl, rfl⟩, rfl, by decide +kernel, by decide +kernel, rfl⟩

/-- A SEAL program in progress; a relocation without a source; a source suspect and not. -/
theorem witness_SealMakesTheSwitch :
    (run.power.op ≠ .failed ∧
      (withEngine (.sealing (job .overwrite) 9 1) run).reloc.engine = .sealing (job .overwrite) 9 1 ∧
      ((programs .relocation (.programTag 9 (.sealing 1)) run).dies.get (dieOf 9)).inProgress =
        some ⟨.relocation, .programTag 9 (.sealing 1), 0⟩) ∧
    { job .backing with source := none }.source = none ∧ (job .overwrite).source = some 5 ∧
    (mapEntry { run with map := bound MapEntry.unbacked } 0).suspect = false ∧
    (mapEntry { run with map := bound { MapEntry.unbacked with suspect := true } } 0).suspect = true :=
  ⟨⟨by decide, rfl, rfl⟩, rfl, rfl, by decide, by decide⟩

/-- Both RETIRE programs in progress; two and three failed targets; POWERDOWN with and without a fold. -/
theorem witness_RelocationRetirementsEnd :
    (run.power.op ≠ .failed ∧
      (withEngine (.retiringSource (job .failure) 5) run).reloc.engine =
        .retiringSource (job .failure) 5 ∧
      ((programs .relocation (.programTag 5 (.retire .program)) run).dies.get (dieOf 5)).inProgress =
        some ⟨.relocation, .programTag 5 (.retire .program), 0⟩) ∧
    ((withEngine (.retiringTarget { job .failure with failedTargets := 3 } 9 1 .tag) run).reloc.engine =
        .retiringTarget { job .failure with failedTargets := 3 } 9 1 .tag ∧
      ((programs .relocation (.programTag 9 (.retire .tag)) run).dies.get (dieOf 9)).inProgress =
        some ⟨.relocation, .programTag 9 (.retire .tag), 0⟩) ∧
    (mapEntry { run with map := [(0, { MapEntry.unbacked with reloc := .inFlight (some 9) true })] }
      0).reloc = .inFlight (some 9) true ∧
    3 ≤ { job .failure with failedTargets := 3 }.failedTargets ∧
    { job .failure with failedTargets := 2 }.failedTargets < 3 ∧
    ((at_ .powerdown).power.op = .powerdown ∧ foldedList (at_ .powerdown) = []) ∧
    run.power.op ≠ .powerdown ∧
    foldedList { at_ .powerdown with wmb := one 0 (.committing 59 .fold) } ≠ [] :=
  ⟨⟨by decide, rfl, rfl⟩, ⟨rfl, rfl⟩, by decide, by decide, by decide, ⟨rfl, rfl⟩, by decide,
    by decide⟩

/-- Sector 7 joins a pool of 6 and 8, equal counts. -/
theorem witness_SectorsJoinTheirSets :
    (7 : Phys) ∉ (withPool [6, 8] [] run).acct.pool ∧
    (withPool [6, 8] [] run).acct.pool.Pairwise fun a b =>
      knownCount (joinPool 7 0 (withPool [6, 8] [] run)) a <
        knownCount (joinPool 7 0 (withPool [6, 8] [] run)) b ∨
      (knownCount (joinPool 7 0 (withPool [6, 8] [] run)) a =
        knownCount (joinPool 7 0 (withPool [6, 8] [] run)) b ∧ a < b) := by decide +kernel

/-- Pools of three and four spares with pending work and without; a record on each die's edge; the
report standing at an IDLE die, at one that has taken another request since, and not. -/
theorem witness_EraseStartsWhenAllowed :
    (run.power.op = .running ∧ run.erase.slots.get .die0 = .idle ∧
      (run.dies.get .die0).reported = true ∧ (run.dies.get .die0).state = .idle ∧
      (run.dies.get .die0).waiting = [] ∧ (run.dies.get .die0).offline = false ∧
      pendingWork run .die0 = false) ∧
    ((withPool [1, 2, 3] [] run).acct.pool.length < 4 ∧
      ¬ (withPool [1, 2, 3, 4] [] run).acct.pool.length < 4 ∧
      pendingWork { run with lanes := ⟨.reading 0 5, .idle⟩ } .die0 = true) ∧
    ((withPool [] [⟨528, 3⟩, ⟨527, 41⟩] run).acct.eraseQueue = [⟨528, 3⟩] ++ ⟨527, 41⟩ :: [] ∧
      dieOf 528 ≠ .die0 ∧ dieOf 527 = .die0) ∧
    (∀ r ∈ run.acct.eraseQueue, dieOf r.phys ≠ .die0) ∧
    ((withDie (.reading (readReq .lane) 0) run).dies.get .die0).reported = true ∧
    (State.reset.dies.get .die0).reported = false :=
  ⟨⟨rfl, rfl, rfl, rfl, rfl, rfl, by decide +kernel⟩, by decide +kernel, by decide, nofun, rfl, rfl⟩

theorem witness_EraseEndsInCountOrRetire :
    (run.power.op ≠ .failed ∧
      (withSlot (.erasing items) run).erase.slots.get .die0 = .erasing items) ∧
    ((withDie (.erasing erasing) run).dies.get .die0).state = .erasing erasing ∧
    ((withDie (.pausing 7 (some erasing) true 99) run).dies.get .die0).state =
      .pausing 7 (some erasing) true 99 ∧
    ((withDie (.resetting .abandonment 999 false) run).dies.get .die0).state =
      .resetting .abandonment 999 false := ⟨⟨by decide, rfl⟩, rfl, rfl, rfl⟩

/-- A COUNT and a RETIRE program in progress; joins that leave one and two spares. -/
theorem witness_SlotProgramsEnd :
    run.power.op ≠ .failed ∧
    ((programs .eraseSlot (.programTag 7 (.count 42)) run).dies.get .die0).inProgress =
      some ⟨.eraseSlot, .programTag 7 (.count 42), 0⟩ ∧
    ((programs .eraseSlot (.programTag 7 (.retire .erase)) run).dies.get .die0).inProgress =
      some ⟨.eraseSlot, .programTag 7 (.retire .erase), 0⟩ ∧
    (withSlot (.counting items) run).erase.slots.get .die0 = .counting items ∧
    (withSlot (.retiring items .tag) run).erase.slots.get .die0 = .retiring items .tag ∧
    ({ run.power with degraded := some .spares }.degraded = some .spares ∧
      2 ≤ (joinPool 7 42 (withPool [8] [] run)).acct.pool.length) ∧
    (joinPool 7 42 run).acct.pool.length < 2 ∧ run.power.degraded ≠ some .spares := by
  refine ⟨by decide, rfl, rfl, rfl, rfl, ?_, ?_, ?_⟩ <;> decide +kernel

/-- Both programs of a release in progress; the sector with a SEALED entry and without. -/
theorem witness_ReleaseEndsUnbacked :
    run.power.op ≠ .failed ∧
    (∀ b, { run with release := some ⟨0, 5, b⟩ }.release = some ⟨0, 5, b⟩) ∧
    ((programs .release (.programTag 5 (.release 1)) run).dies.get (dieOf 5)).inProgress =
      some ⟨.release, .programTag 5 (.release 1), 0⟩ ∧
    ((programs .release (.programTag 5 (.retire .tag)) run).dies.get (dieOf 5)).inProgress =
      some ⟨.release, .programTag 5 (.retire .tag), 0⟩ ∧
    (∃ e ∈ (one 2047 (.sealed 59)).entries, e.isSealed = true ∧ e.sector = 0) ∧
    ¬ ∃ e ∈ (one 2048 (.sealed 59)).entries, e.isSealed = true ∧ e.sector = 0 :=
  ⟨by decide, fun _ => rfl, rfl, rfl, by decide, by decide⟩

/-- A tag for each line of the classification; both comparisons of candidates; the last sector of
each die and the one before. -/
theorem witness_ScannerJudgesTags :
    (judgeTag (tagOf [.sealing 1, .claim 5 1]) .claim = .valid (.claim 5 1) ∧
      judgeTag (tagOf [.sealing 1, .claim 5 1]) .sealing = .valid (.sealing 1)) ∧
    (judgeTag (tagOf [.sealing 2, .claim 5 1]) .sealing = .valid (.sealing 2) ∧
      judgeTag (tagOf [.sealing 2, .claim 5 1]) .claim ≠ .valid (.claim 5 2)) ∧
    (judgeTag (tagOf [.release 1, .sealing 1, .claim 5 1]) .release = .valid (.release 1) ∧
      judgeTag (tagOf [.release 2, .sealing 1, .claim 5 1]) .release = .valid (.release 2)) ∧
    scanJudge (tagOf [.retire .tag, .count 1]) .retire = .valid (.retire .tag) ∧
    (scanJudge (tagOf [.sealing 2, .claim 5 1, .count 1]) .sealing = .garbled ∧
      scanJudge (tagOf [.sealing 2, .claim 5 1, .count 1]) .retire = .blank) ∧
    (∀ x, scanJudge (tagOf []) x = .blank) ∧
    (scanJudge (tagOf [.count 1]) .count = .valid (.count 1) ∧
      scanJudge (tagOf [.count 1]) .claim = .blank) ∧
    (scanJudge (tagOf [.claim 5 1]) .claim = .valid (.claim 5 1) ∧
      scanJudge (tagOf [.claim 5 1]) .sealing = .blank) ∧
    (scanJudge (tagOf [.sealing 1, .claim 5 1]) .sealing = .valid (.sealing 1) ∧
      scanJudge (tagOf [.sealing 1, .claim 5 1]) .release = .blank) ∧
    scanJudge (tagOf [.release 1, .sealing 1, .claim 5 1]) .release = .valid (.release 1) ∧
    ((judgeTag (tagOf [.claim 5 1]) .claim).claimGen = some 1 ∧
      (judgeTag (tagOf []) .claim).claimGen = none) ∧
    ((classifyTag (tagOf [])).candidate = none ∧
      (classifyTag (tagOf [.sealing 1, .claim 5 1])).candidate = some (5, 1)) ∧
    (Table.find Scanner.atReset.candidates 5 = none ∧
      Table.find { Scanner.atReset with candidates := [(5, ⟨8, 1⟩)] }.candidates 5 =
        some ⟨8, 1⟩) ∧
    (run.power.op ≠ .failed ∧ ∀ p : Phys,
      ((withDie (.reading ⟨.scanner, .readTag p, 0⟩ 19) run).dies.get .die0).inProgress =
        some ⟨.scanner, .readTag p, 0⟩) ∧
    ((527 : Phys).val = (526 : Phys).val + 1 ∧ (526 : Phys).val ≠ 527 ∧
      (1055 : Phys).val = (1054 : Phys).val + 1 ∧ (1054 : Phys).val ≠ 527) := by
  refine ⟨?_, ?_, ?_, ?_, ?_, fun x => ?_, ?_, ?_, ?_, ?_, ?_, ?_, ?_, ⟨?_, fun _ => rfl⟩, ?_⟩
  all_goals first | decide +kernel | (cases x <;> decide +kernel)

/-- A scan with both dies done: one candidate, one sector of each other class. -/
def scanned : State := { State.reset with scan :=
  { progress := ⟨.done, .done⟩, judged := 1056
    classes := [(0, ⟨.eraseQueue, 3⟩), (7, ⟨.spare, 2⟩), (8, ⟨.candidate, 1⟩),
      (1055, ⟨.retired .tag, 0⟩)]
    candidates := [(1023, ⟨8, 1⟩)], highest := some 1 } }

theorem witness_ScanEndWritesTheMap :
    (run.power.op ≠ .starting ∧ State.reset.scan.progress.die0 ≠ .done) ∧
    (scanned.power.op = .starting ∧ scanned.scan.progress.die0 = .done ∧
      scanned.scan.progress.die1 = .done) ∧
    StartingQuiet scanned ∧ TablesCanonical scanned ∧ (∀ c ∈ scanned.scan.classes, c.1 < 1056) ∧
    (∀ h, scanned.host.port ≠ .holding h) ∧
    (withPort (.holding readCycle) scanned).host.port = .holding readCycle ∧
    (State.reset.scan.highest = none ∧ scanned.scan.highest = some 1) ∧
    (Table.find scanned.scan.candidates 0 = none ∧
      Table.find scanned.scan.candidates 1023 = some ⟨8, 1⟩) ∧
    (Table.find scanned.scan.classes 7 = some ⟨.spare, 2⟩ ∧
      Table.find scanned.scan.classes 0 = some ⟨.eraseQueue, 3⟩ ∧
      Table.find scanned.scan.classes 1055 = some ⟨.retired .tag, 0⟩) :=
  ⟨by decide, by decide, ⟨fun _ => by decide, fun _ => by decide, fun _ => by decide,
      fun _ => by decide⟩, ⟨by decide, by decide, by decide, by decide, by decide, by decide⟩,
    by decide, nofun, rfl, by decide, by decide, by decide⟩

/-- An erase 1 µs short of its progress interval with 47 pauses taken, a host read waiting; the two
answers. -/
theorem witness_ErasePausesForHostRead :
    (run.power.op ≠ .failed ∧
      ((withDie0 (.erasing erasing) [readReq .hostPort] run).dies.get .die0).state = .erasing erasing ∧
      ((withDie0 (.erasing erasing) [readReq .hostPort] run).dies.get .die0).waiting.any
        Request.isHostRead = true ∧ erasing.pauses < 48 ∧
      ((withDie0 (.erasing erasing) [readReq .hostPort] run).dies.get .die0).offline = false) ∧
    ((withDie (.pausing 7 (some erasing) false 99) run).dies.get .die0).state =
      .pausing 7 (some erasing) false 99 ∧
    ((withDie (.pausing 7 none false 99) run).dies.get .die0).state = .pausing 7 none false 99 :=
  ⟨by decide, rfl, rfl⟩

/-- Each timed state 1 µs short of its limit; each state of the port at the entry to FAILED. -/
theorem witness_TimeOutsResetTheDie :
    ((withDie (.programming (readReq .lane) 999) run).dies.get .die0).state =
      .programming (readReq .lane) 999 ∧
    ((withDie (.erasing { erasing with erasing := 4999999 }) run).dies.get .die0).state.eraseRun =
      some { erasing with erasing := 4999999 } ∧
    run.power.op ≠ .failed ∧
    ((withDie (.reading (readReq .lane) 19) run).dies.get .die0).state =
      .reading (readReq .lane) 19 ∧
    ((withDie (.heldReading erasing (readReq .lane) false 19) run).dies.get .die0).state =
      .heldReading erasing (readReq .lane) false 19 ∧
    ((withDie (.pausing 7 none false 99) run).dies.get .die0).state = .pausing 7 none false 99 ∧
    (((withDie (.resetting .partReset 999 false) run).dies.get .die0).state =
      .resetting .partReset 999 false ∧
      ((withDie (.resetting .partReset 999 false) run).dies.get .die0).offline = false) ∧
    (at_ .failed).power.op = .failed ∧
    (heldCycle run = none ∧ ∀ ask, run.host.port ≠ .reading (.abandoned none) ask) ∧
    (withPort (.reading (.abandoned none) ⟨5, 0, none, none⟩) run).host.port =
      .reading (.abandoned none) ⟨5, 0, none, none⟩ ∧
    (heldCycle (withPort (.holding readCycle) run) = some readCycle ∧
      readCycle.cycle.low = true ∧ readCycle.cycle.kind = .read ∧
      (∀ h, (withPort (.holding readCycle) run).host.port ≠ .writing h) ∧
      ∀ h ask, (withPort (.holding readCycle) run).host.port ≠ .reading (.cycle h) ask) ∧
    (heldCycle (withPort (.writing writeCycle) run) = some writeCycle ∧
      writeCycle.cycle.kind ≠ .read ∧
      ∀ h ask, (withPort (.writing writeCycle) run).host.port ≠ .reading (.cycle h) ask) ∧
    ((withPort (.holding ⟨⟨0, false, false, .read⟩, 3, false⟩) (at_ .starting)).host.port =
        .holding ⟨⟨0, false, false, .read⟩, 3, false⟩ ∧
      (withPort (.reading (.abandoned (some ⟨⟨0, false, false, .read⟩, 3, false⟩)) ⟨5, 0, none, none⟩)
        run).host.port = .reading (.abandoned (some ⟨⟨0, false, false, .read⟩, 3, false⟩))
          ⟨5, 0, none, none⟩) ∧
    ((∀ r time, (run.dies.get .die0).state ≠ .programming r time) ∧
      (run.dies.get .die0).state.eraseRun = none) ∧
    ∀ cause time, (run.dies.get .die0).state ≠ .resetting cause time false :=
  ⟨rfl, rfl, by decide, rfl, rfl, rfl, ⟨rfl, rfl⟩, rfl, ⟨rfl, nofun⟩, rfl,
    ⟨rfl, rfl, rfl, nofun, nofun⟩, ⟨rfl, by decide, nofun⟩, ⟨rfl, rfl⟩, ⟨nofun, rfl⟩, nofun⟩

/-- A DIE RESET of each cause 1 µs short of its limit; each requester waiting for what was cut. -/
theorem witness_ReadyReportsWhatWasCut :
    (∀ cause, ((withDie (.resetting cause 999 false) run).dies.get .die0).state =
        .resetting cause 999 false ∧
      ((withDie (.resetting cause 999 false) run).dies.get .die0).offline = false) ∧
    ((at_ .failed).power.op = .failed ∧ run.power.op ≠ .failed) ∧
    (∀ i, run.erase.slots.get .die0 ≠ .erasing i) ∧
    ((withSlot (.erasing items) run).erase.slots.get .die0 = .erasing items ∧
      items.phys ∉ (withSlot (.erasing items) run).erase.pauseList ∧
      items.phys ∈ { run.erase with pauseList := [7] }.pauseList) ∧
    (deliverTimeout .die0 .lane (.readLine 5 0)
      (withSlot (.erasing items) (laneReads [] run))).erase.slots.get .die0 = .erasing items ∧
    (withPort (.reading (.cycle readCycle) ⟨5, 0, none, none⟩) run).host.port =
      .reading (.cycle readCycle) ⟨5, 0, none, none⟩ ∧
    (withPort (.reading (.abandoned none) ⟨5, 0, none, none⟩) run).host.port =
      .reading (.abandoned none) ⟨5, 0, none, none⟩ ∧
    (laneReads [] run).lanes.get .die0 = .reading 0 5 ∧
    (withEngine (.retiringTarget (job .failure) 9 1 .tag) run).reloc.engine =
      .retiringTarget (job .failure) 9 1 .tag ∧
    (withEngine (.retiringSource (job .failure) 5) run).reloc.engine =
      .retiringSource (job .failure) 5 :=
  ⟨fun _ => ⟨rfl, rfl⟩, by decide, nofun, by decide, by decide, rfl, rfl, rfl, rfl, rfl⟩

/-- The last index and number of each report and the first past it; each engine, lane, port, relocation
field and generation; a sector on each list, and on none. -/
theorem witness_ReportsChangeNothing : run.power.op ≠ .starting ∧ run.power.op = .running ∧
    ((15 : Byte).toNat = (15 : Fin 16).val ∧ 16 ≤ (16 : Byte).toNat) ∧
    ((1023 : BitVec 16).toNat = (1023 : Sector).val ∧ 1024 ≤ (1024 : BitVec 16).toNat) ∧
    ((1055 : BitVec 16).toNat = (1055 : Phys).val ∧ 1056 ≤ (1056 : BitVec 16).toNat) ∧
    (∀ e, (withEngine e run).reloc.engine = e) ∧ (∀ p, (withPort p run).host.port = p) ∧
    ((at_ .powerdown).power.op = .powerdown ∧ run.power.op ≠ .powerdown) ∧
    (run.reloc.generation = some 1 ∧ State.reset.reloc.generation = none) ∧
    (∀ x, ({ run with lanes := ⟨x, .idle⟩ } : State).lanes.get .die0 = x) ∧
    ((mapEntry run 0).binding = none ∧ (mapEntry run 0).reloc = .absent ∧
      (mapEntry { run with map := bound MapEntry.unbacked } 0).binding = some ⟨5, 1⟩) ∧
    (∀ f, mapEntry { run with map := [(0, { MapEntry.unbacked with reloc := f })] } 0 =
      { MapEntry.unbacked with reloc := f }) ∧
    ((withEngine (.claiming (job .failure) 9 1 false) run).reloc.engine.beforeSwitch =
        some (job .failure) ∧ (job .failure).sector = 0) ∧
    (Table.find run.acct.recs 7 = none ∧ Table.find accounted.acct.recs 5 = some ⟨.mapped, 3⟩) ∧
    (accounted.acct.pool = [] ++ 7 :: [] ∧ (7 : Phys) ∉ ([] : List Phys) ∧
      (9 : Phys) ∉ accounted.acct.pool) ∧
    (withPool [] [⟨8, 0⟩, ⟨9, 0⟩] run).acct.eraseQueue = [⟨8, 0⟩] ++ ⟨9, 0⟩ :: [] ∧
    (({ run.acct with retired := [⟨9, .tag⟩] } : Accounting).retired = [] ++ ⟨9, .tag⟩ :: [] ∧
      (∀ x ∈ run.acct.retired, x.phys ≠ 9) ∧ ∀ x ∈ run.acct.eraseQueue, x.phys ≠ 9) :=
  ⟨by decide, rfl, by decide, by decide, by decide, fun _ => rfl, fun _ => rfl, by decide, by decide,
    fun _ => rfl, by decide, fun _ => rfl, by decide, by decide, by decide, rfl, rfl, nofun, nofun⟩

/-- Each operand at its last value and past it; a frozen and an unfrozen region. -/
theorem witness_RegionCommandsAct : run.power.op = .running ∧
    ((15 : Byte).toNat = (15 : Fin 16).val ∧ 16 ≤ (16 : Byte).toNat) ∧
    ((16383 : BitVec 16).toNat = (16383 : Page).val ∧ 16384 ≤ (16384 : BitVec 16).toNat) ∧
    (15 : BitVec 16).toNat < (16 : BitVec 16).toNat ∧
    ((3 : Byte).toNat = Mode.noAccess.code ∧ 4 ≤ (4 : Byte).toNat) ∧
    ((1 : Byte).toNat < 2 ∧ 2 ≤ (2 : Byte).toNat) ∧
    (regionAt regions98 0).frozen = true ∧ (regionAt regions98 3).frozen = false := by decide +kernel

/-- A delay 1 µs above an age and at it; a threshold of 0, above a stall and at it; each state of the
port that holds a cycle, and none. -/
theorem witness_SettingCommandsAct : run.power.op = .running ∧
    ((50 : BitVec 16) ≠ 0 ∧ writeCycle.stall < (50 : BitVec 16).toNat ∧
      (49 : BitVec 16).toNat ≤ writeCycle.stall ∧ writeCycle.counted = false) ∧
    (∀ e ∈ (one 0 (.opened 1999)).entries, ∀ age, e.stage = .opened age →
      age < (2000 : BitVec 16).toNat) ∧
    (WmbOrderly (one 0 (.opened 1999)) ∧
      ∃ e ∈ (one 0 (.opened 1999)).entries, ∃ age, e.stage = .opened age ∧
        (1999 : BitVec 16).toNat ≤ age) ∧
    heldCycle (withPort (.writing writeCycle) run) = some writeCycle ∧
    (heldCycle (withPort (.holding readCycle) run) = some readCycle ∧ heldCycle run = none) ∧
    (∀ who, (who = .cycle readCycle ∨ who = .abandoned (some readCycle)) →
      heldCycle (withPort (.reading who ⟨5, 0, none, none⟩) run) = some readCycle) ∧
    (4 ≤ (4 : Byte).toNat ∧ (3 : Byte).toNat < 4) :=
  ⟨rfl, by decide, fun e he age h => by
    rw [List.mem_singleton.1 he] at h; cases h; decide,
    ⟨(orderly_one 0).1, _, List.mem_singleton.2 rfl, 1999, rfl, by decide⟩, rfl, ⟨rfl, rfl⟩,
    fun who h => by rcases h with rfl | rfl <;> rfl, by decide⟩

theorem witness_ReadFaultRemovesOldest : run.power.op ≠ .starting ∧
    (List.replicate 16 (FaultRecord.mk 0 (.eraseFail 7))).length ≤ 16 ∧
    { run.link with faults := [⟨0, .eraseFail 7⟩] }.faults = ⟨0, .eraseFail 7⟩ :: [] ∧
    run.link.faults = [] := by decide

/-- The last sector and past it; BUSY by a command, by a COMMITTING entry, by a relocation; UNBACKED
and BACKED. -/
theorem witness_ReleaseSectorActsInOrder : run.power.op = .running ∧
    commandInProgress { run with link := { run.link with lastLong := some ⟨.flush, false⟩ } } = true ∧
    commandInProgress run = false ∧
    (1024 ≤ (1024 : BitVec 16).toNat ∧ (1023 : BitVec 16).toNat = (1023 : Sector).val) ∧
    (∃ x ∈ (one 2047 (.committing 59 .fold)).entries, x.sector = 0 ∧ x.isCommitting = true) ∧
    (∃ t pending, (mapEntry { run with map := [(0, { MapEntry.unbacked with
      reloc := .inFlight none false })] } 0).reloc = .inFlight t pending) ∧
    TablesCanonical { run with map := bound MapEntry.unbacked } ∧
    (mapEntry run 0).binding = none ∧
    (mapEntry { run with map := bound MapEntry.unbacked } 0).binding = some ⟨5, 1⟩ :=
  ⟨rfl, rfl, rfl, by decide, by decide, ⟨_, _, rfl⟩, canonical_bound, by decide, by decide⟩

/-- A frame too short, one of a wrong length, one of a wrong check, an unknown code; commands in each
state that refuses. -/
theorem witness_RefusedCommandsOnlyAnswer :
    ([0x01, 0x00] : List Byte).length < 3 ∧
    ([0xC2, 0x00] : List Byte).length ≠ (0x00 : Byte).toNat + 1 ∧
    ([0x01, 0x00, 0xC3] : List Byte).getLast? ≠ some (crc8 [0x01, 0x00]) ∧
    ([] : List Byte).length < 256 ∧ parseCommand 0x13 [] = none ∧
    commandParts .flush = some (0x02, []) ∧
    ((at_ .starting).power.op = .starting ∧ (at_ .failed).power.op = .failed) ∧
    commandInProgress { run with link := { run.link with lastLong := some ⟨.flush, false⟩ } } = true ∧
    run.power.op = .running := by decide +kernel

/-- The first entry that contains a page, at its last page; a page that none contains; another
address. -/
theorem witness_LookupAndPinsFollowState :
    ((regionAt regions98 1).enabled = true ∧ (regionAt regions98 1).first ≤ 31 ∧
      (31 : Page) ≤ (regionAt regions98 1).last) ∧
    (∀ x : Fin 16, x < 1 → ¬ ((regionAt regions98 x).enabled = true ∧
      (regionAt regions98 x).first ≤ 31 ∧ (31 : Page) ≤ (regionAt regions98 x).last)) ∧
    (∀ x : Fin 16, ¬ ((regionAt regions98 x).enabled = true ∧
      (regionAt regions98 x).first ≤ 48 ∧ (48 : Page) ≤ (regionAt regions98 x).last)) ∧
    (0x4C : BitVec 7) ≠ 0x4D := by
  decide +kernel

end Sys2Proof.Machine.Tests
end

section
/-!
PROOFS. How the write-merge buffer takes a presented write (chapter 1, R3 to R10): the bytes by
position, the orders an orderly buffer keeps apart, the sealing of the oldest OPEN entry, and the
two ways a write is taken.
-/

namespace Sys2Proof.Machine

open Sys2Proof

/-! ### Bytes by position -/

/-- Entry bytes given by a rule over the 32 positions hold at each position what the rule says. -/
theorem heldByte_positions (f : Nat → Option Byte) {i : Nat} (hi : i < 32) :
    heldByte ((List.range 32).map f) i = f i := by
  simp [heldByte, List.getD_eq_getElem?_getD, hi]

theorem heldByte_mergeHeld (new old : List (Option Byte)) {i : Nat} (hi : i < 32) :
    heldByte (mergeHeld new old) i = (heldByte new i).or (heldByte old i) :=
  heldByte_positions _ hi

theorem fullMask_iff (h : List (Option Byte)) :
    fullMask h = true ↔ ∀ i < 32, heldByte h i ≠ none := by
  simp [fullMask, Option.isSome_iff_ne_none]

theorem heldByte_writeBytes (c : HostCycle) (data : HostWord) {i : Nat} (hi : i < 32) :
    heldByte (writeBytes c data) i =
      if c.low = true ∧ i = 2 * (c.addr.toNat % 16) then some (data.extractLsb' 0 8)
      else if c.high = true ∧ i = 2 * (c.addr.toNat % 16) + 1 then some (data.extractLsb' 8 8)
      else none := by
  rw [writeBytes, heldByte_positions _ hi]
  simp [lowPosition]

/-! ### Entries told apart in an orderly buffer -/

theorem WmbOrderly.eq_of_openOrder {w : Wmb} (hw : WmbOrderly w) {a b : Entry}
    (ha : a ∈ w.entries) (hb : b ∈ w.entries) (h : a.openOrder = b.openOrder) : a = b :=
  List.inj_on_of_nodup_map (hw.rising.imp Nat.ne_of_lt) ha hb h

/-- A line has one OPEN entry at most (R1). -/
theorem WmbOrderly.eq_of_open_line {w : Wmb} (hw : WmbOrderly w) {a b : Entry}
    (ha : a ∈ w.entries) (hb : b ∈ w.entries) (hao : a.isOpen = true) (hbo : b.isOpen = true)
    (h : a.line = b.line) : a = b :=
  List.inj_on_of_nodup_map (List.pairwise_map.mpr hw.oneOpen)
    (List.mem_filter.mpr ⟨ha, hao⟩) (List.mem_filter.mpr ⟨hb, hbo⟩) h

/-! ### Sealing -/

@[simp] theorem requestReloc_wmb (l : Sector) (reason : RelocReason) (s : State) :
    (requestReloc l reason s).wmb = s.wmb := by
  obtain ⟨m, r, h⟩ := requestReloc_shape l reason s
  rw [h]; rfl

theorem openOrders_map_sealed (id ord : Nat) (es : List Entry) :
    (es.map fun x => if x.openOrder = id ∧ x.isOpen then { x with stage := .sealed ord } else x).map
      (·.openOrder) = es.map (·.openOrder) := by
  rw [List.map_map]
  refine List.map_congr_left fun x _ => ?_
  by_cases h : x.openOrder = id ∧ x.isOpen
  · simp [h]
  · simp [h]

/-- The act of sealing keeps every entry in its place with its open order. -/
@[simp] theorem sealEntry_openOrders (id : Nat) (s : State) :
    (sealEntry id s).wmb.entries.map (·.openOrder) = s.wmb.entries.map (·.openOrder) := by
  unfold sealEntry
  split
  · rfl
  · dsimp only
    split
    · rw [requestReloc_wmb]
      exact openOrders_map_sealed _ _ _
    · exact openOrders_map_sealed _ _ _

/-- Where open orders rise, the OPEN entry that an opening seals at the high-water mark is the one
with the lowest open order (R10). -/
theorem sealOldest_eq_sealEntry {s : State} {o : Entry}
    (rising : (s.wmb.entries.map (·.openOrder)).Pairwise (· < ·))
    (ho : o ∈ s.wmb.entries) (hopen : o.isOpen = true)
    (oldest : ∀ x ∈ s.wmb.entries, x.isOpen = true → o.openOrder ≤ x.openOrder) :
    sealOldest s = sealEntry o.openOrder s := by
  unfold sealOldest
  split
  next e he =>
    obtain ⟨heOpen, before, after, hsplit, hbefore⟩ := List.find?_eq_some_iff_append.mp he
    have first_le : e.openOrder ≤ o.openOrder := by
      rw [hsplit] at rising ho
      rcases List.mem_append.mp ho with hb | ha
      · simpa [hopen] using hbefore o hb
      · rcases List.mem_cons.mp ha with rfl | hafter
        · exact Nat.le_refl _
        · rw [List.pairwise_map, List.pairwise_append, List.pairwise_cons] at rising
          obtain ⟨-, ⟨e_lt_after, -⟩, -⟩ := rising
          exact Nat.le_of_lt (e_lt_after o hafter)
    have le_first := oldest e (List.mem_of_find?_eq_some he) heOpen
    rw [Nat.le_antisymm first_le le_first]
  next hnone => exact absurd hopen (List.find?_eq_none.mp hnone o ho)

theorem sealOldest_of_no_open {s : State} (h : ∀ o ∈ s.wmb.entries, o.isOpen = false) :
    sealOldest s = s := by
  have hnone : s.wmb.entries.find? Entry.isOpen = none :=
    List.find?_eq_none.mpr fun o ho => by simp [h o ho]
  simp [sealOldest, hnone]

/-! ### Merging -/

/-- In an orderly buffer a merge replaces the bytes of its own entry alone (R5). -/
theorem mergeEntry_eq {s : State} (hw : WmbOrderly s.wmb) {e : Entry} (he : e ∈ s.wmb.entries)
    (bytes : List (Option Byte)) :
    let merged : State := { s with wmb := { s.wmb with
      entries := s.wmb.entries.map fun x =>
        if x = e then { e with held := mergeHeld bytes e.held } else x } }
    mergeEntry e bytes s =
      if fullMask (mergeHeld bytes e.held) then sealEntry e.openOrder merged else merged := by
  have only_e : (s.wmb.entries.map fun x =>
        if x.openOrder = e.openOrder then { x with held := mergeHeld bytes x.held } else x) =
      s.wmb.entries.map fun x =>
        if x = e then { e with held := mergeHeld bytes e.held } else x := by
    refine List.map_congr_left fun x hx => ?_
    by_cases hxe : x = e
    · simp [hxe]
    · have horder : x.openOrder ≠ e.openOrder := fun h => hxe (hw.eq_of_openOrder hx he h)
      simp [hxe, horder]
  simp only [mergeEntry, updateEntry, setEntries, only_e]
  rfl

theorem presentWrite_of_open {s : State} (hw : WmbOrderly s.wmb) {e : Entry}
    (he : e ∈ s.wmb.entries) (hopen : e.isOpen = true) (bytes : List (Option Byte)) :
    presentWrite e.line bytes s = some (mergeEntry e bytes s) := by
  unfold presentWrite
  split
  next x hx =>
    have hmatch := List.find?_some hx
    simp only [Bool.and_eq_true, beq_iff_eq] at hmatch
    rw [hw.eq_of_open_line (List.mem_of_find?_eq_some hx) he hmatch.1 hopen hmatch.2]
  next hnone => simpa [hopen] using List.find?_eq_none.mp hnone e he

/-! ### Opening -/

/-- The state of an opening before the rule of the high-water mark: the FREE entry OPEN with the
write's bytes, and sealed at once with a commit delay of 0 (R4, R8). -/
def afterOpening (line : LineNo) (bytes : List (Option Byte)) (s : State) : State :=
  let opened : State := { s with wmb := { s.wmb with
    entries := s.wmb.entries ++ [⟨line, bytes, s.wmb.openCounter, .opened 0⟩]
    openCounter := s.wmb.openCounter + 1 } }
  if s.wmb.commitDelay = 0 then sealEntry s.wmb.openCounter opened else opened

theorem openEntry_eq (line : LineNo) (bytes : List (Option Byte)) (s : State) :
    openEntry line bytes s =
      if highWater ≤ (afterOpening line bytes s).wmb.entries.length then
        sealOldest (afterOpening line bytes s)
      else afterOpening line bytes s := rfl

theorem afterOpening_openOrders (line : LineNo) (bytes : List (Option Byte)) (s : State) :
    (afterOpening line bytes s).wmb.entries.map (·.openOrder) =
      s.wmb.entries.map (·.openOrder) ++ [s.wmb.openCounter] := by
  unfold afterOpening
  dsimp only
  split <;> simp

theorem afterOpening_length (line : LineNo) (bytes : List (Option Byte)) (s : State) :
    (afterOpening line bytes s).wmb.entries.length = s.wmb.entries.length + 1 := by
  simpa using congrArg List.length (afterOpening_openOrders line bytes s)

/-- An opening keeps the open orders rising: the fresh one is above them all (R2). -/
theorem afterOpening_rising {s : State} (hw : WmbOrderly s.wmb) (line : LineNo)
    (bytes : List (Option Byte)) :
    ((afterOpening line bytes s).wmb.entries.map (·.openOrder)).Pairwise (· < ·) := by
  rw [afterOpening_openOrders, List.pairwise_append]
  refine ⟨hw.rising, List.pairwise_singleton _ _, ?_⟩
  simpa using hw.openBelow

theorem openEntry_of_low {line : LineNo} {bytes : List (Option Byte)} {s : State}
    (h : s.wmb.entries.length < 23) : openEntry line bytes s = afterOpening line bytes s := by
  rw [openEntry_eq, afterOpening_length, if_neg (by unfold highWater; omega)]

theorem openEntry_of_high {line : LineNo} {bytes : List (Option Byte)} {s : State}
    (h : 23 ≤ s.wmb.entries.length) :
    openEntry line bytes s = sealOldest (afterOpening line bytes s) := by
  rw [openEntry_eq, afterOpening_length, if_pos (by unfold highWater; omega)]

theorem presentWrite_of_no_open {line : LineNo} {s : State} (bytes : List (Option Byte))
    (h : ∀ e ∈ s.wmb.entries, e.isOpen = true → e.line ≠ line) :
    presentWrite line bytes s =
      if s.wmb.entries.length < 32 then some (openEntry line bytes s) else none := by
  have hnone : s.wmb.entries.find? (fun e => e.isOpen && e.line == line) = none :=
    List.find?_eq_none.mpr fun e he => by simpa using h e he
  simp only [presentWrite, hnone]
  rfl

/-! ### The obligation -/

/-- Settles O31: a merge by the uniqueness of the line's OPEN entry, an opening by the number of
entries in use, and the bytes position by position. -/
theorem wmbTakesWrites : Obligations.WmbTakesWrites := by
  intro s line bytes hw
  refine ⟨?merge, fun hnone => ⟨?full, ?low, fun h23 h32 => ⟨?oldest, ?noOpen⟩⟩,
    fun new old _ => heldByte_mergeHeld new old, fullMask_iff,
    fun c data _ => heldByte_writeBytes c data⟩
  case merge =>
    rintro e he hopen rfl
    rw [presentWrite_of_open hw he hopen, mergeEntry_eq hw he]
  case full =>
    intro h32
    rw [presentWrite_of_no_open bytes hnone, if_neg (by omega)]
  case low =>
    intro h23
    rw [presentWrite_of_no_open bytes hnone, if_pos (by omega), openEntry_of_low h23]
    rfl
  case oldest =>
    intro o ho hopen holdest
    rw [presentWrite_of_no_open bytes hnone, if_pos h32, openEntry_of_high h23]
    exact congrArg some
      (sealOldest_eq_sealEntry (afterOpening_rising hw line bytes) ho hopen holdest)
  case noOpen =>
    intro hsealed
    rw [presentWrite_of_no_open bytes hnone, if_pos h32, openEntry_of_high h23]
    exact congrArg some (sealOldest_of_no_open hsealed)

end Sys2Proof.Machine
end

section
/-!
PROOFS. How a returned medium line decides a commit in place (chapter 4, R63 to R69): the bit test
by position, the one entry a lane's commit concerns in an orderly buffer, the states in which a
commit ends, and the four outcomes of the test.
-/

namespace Sys2Proof.Machine

open Sys2Proof

/-! ### The target line and the bit test -/

theorem lineByte_layOver (h : List (Option Byte)) (l : LineData) {i : Nat} (hi : i < 32) :
    lineByte (layOver h l) i = (heldByte h i).getD (lineByte l i) := by
  simp [layOver, lineByte, List.getD_eq_getElem?_getD, hi]

/-- The bit test by position: no bit is 1 in the target where it is 0 in the medium (R64). -/
theorem bitTest_iff (medium target : LineData) :
    bitTest medium target = true ↔
      ∀ i < 32, lineByte target i &&& ~~~ lineByte medium i = 0#8 := by
  simp [bitTest]

/-! ### The entry of an open order in an orderly buffer -/

theorem WmbOrderly.openOrder_eq_iff {w : Wmb} (hw : WmbOrderly w) {a b : Entry}
    (ha : a ∈ w.entries) (hb : b ∈ w.entries) : a.openOrder = b.openOrder ↔ a = b :=
  ⟨hw.eq_of_openOrder ha hb, congrArg Entry.openOrder⟩

theorem entryOf_of_mem {s : State} (hw : WmbOrderly s.wmb) {e : Entry} (he : e ∈ s.wmb.entries) :
    entryOf s e.openOrder = some e := by
  unfold entryOf
  cases hfind : s.wmb.entries.find? fun x => x.openOrder == e.openOrder with
  | none => simpa using List.find?_eq_none.mp hfind e he
  | some x =>
    have same_order : x.openOrder = e.openOrder := by simpa using List.find?_some hfind
    rw [hw.eq_of_openOrder (List.mem_of_find?_eq_some hfind) he same_order]

/-- Freeing by open order frees that entry alone (R17). -/
theorem freeWhere_openOrder {s : State} (hw : WmbOrderly s.wmb) {e : Entry}
    (he : e ∈ s.wmb.entries) :
    freeWhere (fun x => x.openOrder == e.openOrder) s =
      setEntries (s.wmb.entries.filter fun x => x ≠ e) s := by
  refine congrArg (setEntries · s) (List.filter_congr fun x hx => ?_)
  rw [Bool.eq_iff_iff]
  simp [hw.openOrder_eq_iff hx he]

theorem countP_openOrder {w : Wmb} (hw : WmbOrderly w) {e : Entry} (he : e ∈ w.entries) :
    w.entries.countP (fun x => x.openOrder == e.openOrder) = 1 := by
  have counts_e : w.entries.countP (fun x => x.openOrder == e.openOrder) = w.entries.count e :=
    List.countP_congr fun x hx => by simp [hw.openOrder_eq_iff hx he]
  rw [counts_e]
  exact List.count_eq_one_of_mem (List.Nodup.of_map _ (hw.rising.imp Nat.ne_of_lt)) he

/-- Discarding by open order loses one line (R19). -/
theorem discardWhere_openOrder {s : State} (hw : WmbOrderly s.wmb) {e : Entry}
    (he : e ∈ s.wmb.entries) :
    (discardWhere (fun x => x.openOrder == e.openOrder) s).1 =
      countUp .linesLost 1 (setEntries (s.wmb.entries.filter fun x => x ≠ e) s) := by
  simp only [discardWhere, countP_openOrder hw he, freeWhere_openOrder hw he]

/-- Returning by open order makes that entry alone SEALED again with its seal order (R16). -/
theorem updateEntry_returned {s : State} (hw : WmbOrderly s.wmb) {e : Entry}
    (he : e ∈ s.wmb.entries) {o : Nat} {t : Taker} (hstage : e.stage = .committing o t) :
    updateEntry e.openOrder Entry.returned s =
      setEntries (s.wmb.entries.map fun x => if x = e then { e with stage := .sealed o } else x)
        s := by
  refine congrArg (setEntries · s) (List.map_congr_left fun x hx => ?_)
  by_cases hxe : x = e
  · simp [hxe, Entry.returned, hstage]
  · simp [hxe, hw.openOrder_eq_iff hx he]

/-! ### A lane's update passes those of other blocks -/

theorem setLane_record (d : DieId) (l : Lane) (b : RecordBody) (s : State) :
    setLane d l (record b s) = record b (setLane d l s) := by
  have same_link : (setLane d l s).link = s.link := rfl
  unfold record
  rw [same_link]
  split <;> rfl

theorem setLane_requestReloc (d : DieId) (l : Lane) (x : Sector) (reason : RelocReason)
    (s : State) :
    setLane d l (requestReloc x reason s) = requestReloc x reason (setLane d l s) := by
  have same_entry : mapEntry (setLane d l s) x = mapEntry s x := rfl
  unfold requestReloc
  rw [same_entry]
  dsimp only
  split <;> rfl

/-! ### The ways a commit ends -/

/-- The state with an entry FREE and its lane IDLE (R17, R66 to R68). -/
def laneFrees (d : DieId) (e : Entry) (s : State) : State :=
  { s with
    wmb := { s.wmb with entries := s.wmb.entries.filter fun x => x ≠ e }
    lanes := s.lanes.set d .idle }

/-- The state with an entry SEALED again with seal order `o` and its lane IDLE (R16, R69, R70). -/
def laneReturns (d : DieId) (e : Entry) (o : Nat) (s : State) : State :=
  { s with
    wmb := { s.wmb with
      entries := s.wmb.entries.map fun x => if x = e then { e with stage := .sealed o } else x }
    lanes := s.lanes.set d .idle }

theorem laneCommitted_eq {s : State} (hw : WmbOrderly s.wmb) {e : Entry}
    (he : e ∈ s.wmb.entries) (d : DieId) :
    laneCommitted d e.openOrder s = countUp .linesCommitted 1 (laneFrees d e s) := by
  rw [laneCommitted, freeWhere_openOrder hw he]
  rfl

theorem laneLoses_eq {s : State} (hw : WmbOrderly s.wmb) {e : Entry} (he : e ∈ s.wmb.entries)
    (d : DieId) (region : Fin 16) :
    laneLoses d e region s =
      record (.clearOnlyLoss e.line region) (countUp .linesLost 1 (laneFrees d e s)) := by
  rw [laneLoses, discardWhere_openOrder hw he, setLane_record]
  rfl

theorem laneHandsOff_eq {s : State} (hw : WmbOrderly s.wmb) {e : Entry} (he : e ∈ s.wmb.entries)
    {o : Nat} {t : Taker} (hstage : e.stage = .committing o t) (d : DieId) :
    laneHandsOff d e s = requestReloc e.sector .overwrite (laneReturns d e o s) := by
  rw [laneHandsOff, updateEntry_returned hw he hstage, setLane_requestReloc]
  rfl

/-! ### The outcomes of the test -/

section Outcomes

variable {s : State} {d : DieId} {e : Entry} {p : Phys} {medium : LineData}
  (hlane : s.lanes.get d = .reading e.openOrder p) (hentry : entryOf s e.openOrder = some e)

include hlane hentry

/-- On a passing bit test the line needs no program where it is the medium line, else one (R66,
R67). -/
theorem laneTests_of_pass (hpass : bitTest medium (layOver e.held medium) = true) :
    laneTests d medium s =
      if layOver e.held medium = medium then laneCommitted d e.openOrder s
      else
        issue .lane (.programLine p (posOf e.line) (layOver e.held medium))
          (setLane d (.programming e.openOrder p medium (layOver e.held medium)) s) := by
  simp [laneTests, hlane, hentry, hpass]

/-- On a failing bit test in a CLEAR-ONLY region the line is lost (R68). -/
theorem laneTests_of_clearOnly (hfail : ¬ bitTest medium (layOver e.held medium) = true)
    {i : Fin 16} (hgov : governing s (pageOfLine e.line) = some i)
    (hmode : (regionAt s i).mode = .clearOnly) :
    laneTests d medium s = laneLoses d e i s := by
  simp [laneTests, hlane, hentry, hfail, hgov, hmode]

/-- Whether an entry governs the page or none does, a failing line is handed off in any other mode
(R69, R146). -/
theorem laneTests_of_not_clearOnly (hfail : ¬ bitTest medium (layOver e.held medium) = true)
    (hmode : modeAt s (pageOfLine e.line) ≠ .clearOnly) :
    laneTests d medium s = laneHandsOff d e s := by
  cases hgov : governing s (pageOfLine e.line) with
  | none => simp [laneTests, hlane, hentry, hfail, hgov]
  | some i =>
    have not_clearOnly : (regionAt s i).mode ≠ .clearOnly := by simpa [modeAt, hgov] using hmode
    simp [laneTests, hlane, hentry, hfail, hgov, not_clearOnly]

end Outcomes

/-- An operation in progress is answered to its own requester (R119). -/
theorem answering_of_inProgress {s : State} {d : DieId} {r : Request}
    (hop : s.power.op ≠ .failed) (hprogress : (s.dies.get d).inProgress = some r) :
    answering s d r.requester = some r.op := by
  simp [answering, hop, hprogress]

/-- The returned line is tested on the medium as it stands, the operation at the die ended (R63). -/
theorem exec_laneReadLineResult {s : State} {d : DieId} {r : Request} {p : Phys} {pos : Pos}
    (hop : s.power.op ≠ .failed) (hprogress : (s.dies.get d).inProgress = some r)
    (hlane : r.requester = .lane) (hread : r.op = .readLine p pos) :
    exec (.laneReadLineResult d) s =
      .next (settle (laneTests d (s.medium.line p pos) (endOperation d s))) := by
  have answers := answering_of_inProgress hop hprogress
  rw [hlane, hread] at answers
  change execLaneReadLineResult d s = _
  rw [execLaneReadLineResult, answers]

/-! ### The obligation -/

/-- Settles O37: the bit test by position, the governing region, and the state each outcome leaves
once the operation at the die has ended, which changes the dies alone. -/
theorem laneReadDecidesTheCommit : Obligations.LaneReadDecidesTheCommit := by
  intro s d r p' pos id p e o hop hprogress hrequester hread hlane hw he hid hstage medium target
    ended freed passes
  subst hid
  have exec_tests : exec (.laneReadLineResult d) s = .next (settle (laneTests d medium ended)) :=
    exec_laneReadLineResult hop hprogress hrequester hread
  have passes_iff : bitTest medium target = true ↔ passes := bitTest_iff medium target
  obtain ⟨ds, hended⟩ : ∃ ds, ended = s.setDies ds := endOperation_shape d s
  have hfreed : freed = laneFrees d e ended := by simp only [freed, hended]; rfl
  rw [exec_tests]
  clear_value ended freed
  subst hended hfreed
  replace hlane : (s.setDies ds).lanes.get d = .reading e.openOrder p := hlane
  replace hw : WmbOrderly (s.setDies ds).wmb := hw
  have hentry : entryOf (s.setDies ds) e.openOrder = some e := entryOf_of_mem hw he
  refine ⟨fun i hi => lineByte_layOver _ _ hi, fun hpass heq => ?noProgram,
    fun hpass hne => ?program, fun hfail i hgov hmode => ?discard, fun hfail hmode => ?handOff⟩
  case noProgram =>
    rw [laneTests_of_pass hlane hentry (passes_iff.mpr hpass), if_pos heq,
      laneCommitted_eq hw he]
  case program =>
    rw [laneTests_of_pass hlane hentry (passes_iff.mpr hpass), if_neg hne]
    rfl
  case discard =>
    rw [laneTests_of_clearOnly hlane hentry (mt passes_iff.mp hfail) hgov hmode,
      laneLoses_eq hw he]
  case handOff =>
    rw [laneTests_of_not_clearOnly hlane hentry (mt passes_iff.mp hfail) hmode,
      laneHandsOff_eq hw he hstage]
    rfl

end Sys2Proof.Machine
end

section
/-!
PROOFS. The commands that change the protection region table (chapter 9, R148, R150): which operands
name an entry and give its values, what an entry holds after one is replaced, and the answer of each
command.
-/

namespace Sys2Proof.Machine

open Sys2Proof

/-! ### One entry of the table replaced -/

@[simp] theorem regionAt_setRegion_same (i : Fin 16) (r : Region) (s : State) :
    regionAt (setRegion i r s) i = r := Table.read_store_same _ _ _ _

theorem regionAt_setRegion_other {i x : Fin 16} (r : Region) (s : State) (h : x ≠ i) :
    regionAt (setRegion i r s) x = regionAt s x :=
  Table.read_store_other _ _ _ fun hv => h (Fin.ext hv)

/-- Replacing an entry changes that entry, and neither another one nor any other block. -/
theorem setRegion_replaces (i : Fin 16) (r : Region) (s : State) :
    setRegion i r s = { s with regions := (setRegion i r s).regions } ∧
      regionAt (setRegion i r s) i = r ∧
      ∀ x, x ≠ i → regionAt (setRegion i r s) x = regionAt s x :=
  ⟨rfl, regionAt_setRegion_same i r s, fun _ hx => regionAt_setRegion_other r s hx⟩

/-! ### The operands -/

theorem regionIndex_of_toNat {index : Byte} {i : Fin 16} (h : index.toNat = i.val) :
    regionIndex index = some i := by
  have lt : index.toNat < 16 := h ▸ i.isLt
  rw [regionIndex, dif_pos lt]
  exact congrArg some (Fin.ext h)

theorem regionIndex_eq_none {index : Byte} (h : 16 ≤ index.toNat) : regionIndex index = none := by
  simp [regionIndex, Nat.not_lt.mpr h]

theorem modeOf_of_code {b : Byte} {m : Mode} (h : b.toNat = m.code) : modeOf b = some m := by
  have hb : b = BitVec.ofNat 8 m.code := by simp [← h]
  cases m <;> subst hb <;> rfl

theorem modeOf_eq_none {b : Byte} (h : 4 ≤ b.toNat) : modeOf b = none := by
  have ne (n : Nat) (hn : n < 4) : b ≠ BitVec.ofNat 8 n := by
    rintro rfl
    rw [BitVec.toNat_ofNat] at h
    omega
  simp [modeOf, ne 0, ne 1, ne 2, ne 3]

/-- An enabled operand is in range where it is hex 00 or 01 (R148). -/
theorem enabledByte_iff (b : Byte) : b = 0x00#8 ∨ b = 0x01#8 ↔ b.toNat < 2 := by bv_omega

/-- Operands in range give the four values, unfrozen (R148). -/
theorem givenRegion_of_valid {first last : BitVec 16} {mode enabled : Byte} {f l : Page} {m : Mode}
    (hf : first.toNat = f.val) (hl : last.toNat = l.val) (hfl : f ≤ l)
    (hm : mode.toNat = m.code) (he : enabled.toNat < 2) :
    givenRegion first last mode enabled = some ⟨f, l, m, decide (enabled.toNat = 1), false⟩ := by
  have pages : first.toNat < 16384 ∧ last.toNat < 16384 := ⟨hf ▸ f.isLt, hl ▸ l.isLt⟩
  have ordered : first.toNat ≤ last.toNat := by rw [hf, hl]; exact hfl
  have one : (enabled == 0x01#8) = decide (enabled.toNat = 1) := by
    rw [beq_eq_decide, decide_eq_decide]
    bv_omega
  have first_eq : (⟨first.toNat, pages.1⟩ : Page) = f := Fin.ext hf
  have last_eq : (⟨last.toNat, pages.2⟩ : Page) = l := Fin.ext hl
  simp only [givenRegion, modeOf_of_code hm, dif_pos pages, if_pos ordered,
    if_pos ((enabledByte_iff enabled).mpr he), one, first_eq, last_eq]

/-- A region is given only where all its operands are in range (R148). -/
theorem inRange_of_givenRegion {first last : BitVec 16} {mode enabled : Byte} {r : Region}
    (h : givenRegion first last mode enabled = some r) :
    first.toNat < 16384 ∧ last.toNat < 16384 ∧ first.toNat ≤ last.toNat ∧ mode.toNat < 4 ∧
      enabled.toNat < 2 := by
  unfold givenRegion at h
  split at h
  case h_2 => cases h
  case h_1 m hm =>
    have mode_lt : mode.toNat < 4 := by
      by_contra hge
      rw [modeOf_eq_none (not_lt.mp hge)] at hm
      cases hm
    split_ifs at h with pages ordered enabledByte
    exact ⟨pages.1, pages.2, ordered, mode_lt, (enabledByte_iff enabled).mp enabledByte⟩

theorem givenRegion_eq_none {first last : BitVec 16} {mode enabled : Byte}
    (h : 16384 ≤ first.toNat ∨ 16384 ≤ last.toNat ∨ last.toNat < first.toNat ∨
      4 ≤ mode.toNat ∨ 2 ≤ enabled.toNat) :
    givenRegion first last mode enabled = none := by
  refine Option.eq_none_iff_forall_ne_some.mpr fun r hr => ?_
  have inRange := inRange_of_givenRegion hr
  omega

/-! ### The answers -/

theorem stateRefusal_of_serving {s : State} (h : s.power.op = .running ∨ s.power.op = .powerdown) :
    stateRefusal s = none := by
  rcases h with h | h <;> simp [stateRefusal, h]

theorem exec_writeRegion {s : State} (h : s.power.op = .running ∨ s.power.op = .powerdown)
    (index : Byte) (first last : BitVec 16) (mode enabled : Byte) :
    exec (.writeRegion index first last mode enabled) s =
      .next (answerWriteRegion index first last mode enabled s) := by
  change Host.Outcome.next (unlessRefused _ _ s) = _
  rw [unlessRefused, stateRefusal_of_serving h]

theorem exec_freezeRegion {s : State} (h : s.power.op = .running ∨ s.power.op = .powerdown)
    (index : Byte) : exec (.freezeRegion index) s = .next (answerFreezeRegion index s) := by
  change Host.Outcome.next (unlessRefused _ _ s) = _
  rw [unlessRefused, stateRefusal_of_serving h]

theorem answerWriteRegion_of_outOfRange {index : Byte} {first last : BitVec 16}
    {mode enabled : Byte} (s : State)
    (h : 16 ≤ index.toNat ∨ 16384 ≤ first.toNat ∨ 16384 ≤ last.toNat ∨ last.toNat < first.toNat ∨
      4 ≤ mode.toNat ∨ 2 ≤ enabled.toNat) :
    answerWriteRegion index first last mode enabled s = respond .invalid 0x11 [] s := by
  rcases h with hindex | hvalues
  · simp [answerWriteRegion, regionIndex_eq_none hindex]
  · simp [answerWriteRegion, givenRegion_eq_none hvalues]

theorem answerWriteRegion_of_inRange {index : Byte} {first last : BitVec 16} {mode enabled : Byte}
    {i : Fin 16} {r : Region} (s : State) (hi : regionIndex index = some i)
    (hr : givenRegion first last mode enabled = some r) :
    answerWriteRegion index first last mode enabled s =
      if (regionAt s i).frozen then respond .frozen 0x11 [] s
      else respond .ok 0x11 [] (setRegion i r s) := by
  simp only [answerWriteRegion, hi, hr]

theorem answerFreezeRegion_of_index {index : Byte} {i : Fin 16} (s : State)
    (hi : regionIndex index = some i) :
    answerFreezeRegion index s =
      respond .ok 0x12 [] (setRegion i { regionAt s i with frozen := true } s) := by
  simp only [answerFreezeRegion, hi]

theorem answerFreezeRegion_of_noIndex {index : Byte} (s : State) (h : 16 ≤ index.toNat) :
    answerFreezeRegion index s = respond .invalid 0x12 [] s := by
  simp only [answerFreezeRegion, regionIndex_eq_none h]

/-! ### The obligation -/

/-- Settles O55: where the state refuses nothing, the operands alone decide INVALID, and an entry in
range is replaced in a table that keeps every other. -/
theorem regionCommandsAct : Obligations.RegionCommandsAct := by
  intro s index first last mode enabled hop write
  have hwrite : write = .next (answerWriteRegion index first last mode enabled s) :=
    exec_writeRegion hop ..
  rw [hwrite, exec_freezeRegion hop]
  refine ⟨fun hout => ?invalidWrite, fun hout => ?invalidFreeze, fun i hindex => ⟨?freeze, ?_⟩⟩
  case invalidWrite => rw [answerWriteRegion_of_outOfRange s hout]
  case invalidFreeze => rw [answerFreezeRegion_of_noIndex s hout]
  case freeze =>
    rw [answerFreezeRegion_of_index s (regionIndex_of_toNat hindex)]
    exact ⟨_, rfl, setRegion_replaces i _ s⟩
  intro f l m hf hl hfl hm he
  rw [answerWriteRegion_of_inRange s (regionIndex_of_toNat hindex)
    (givenRegion_of_valid hf hl hfl hm he)]
  refine ⟨fun hfrozen => ?frozen, fun hthawed => ?written⟩
  case frozen => rw [if_pos hfrozen]
  case written =>
    rw [if_neg (Bool.eq_false_iff.mp hthawed)]
    exact ⟨_, rfl, setRegion_replaces i _ s⟩

end Sys2Proof.Machine
end

section
/-!
PROOFS. What every command but a reset keeps (`Keeps`), block by block: the canonical tables, the
write-merge buffer's orders, the pause budget, the region ranges, the bounds of the link, and what only
rises or stays. Each write to a block keeps it; the operations and the commands are chains of such
writes.
-/

namespace Sys2Proof.Machine

open Sys2Proof

/-! ### The write-merge buffer under its writes -/

theorem WmbOrderly.withBoundary {w : Wmb} (hw : WmbOrderly w) {b : Option Nat}
    (hb : ∀ x, b = some x → x ≤ w.openCounter) : WmbOrderly { w with boundary := b } :=
  { hw with boundary := hb }

/-- Entries whose stages alone change, OPEN ones staying OPEN and the others keeping their seal
order, keep the buffer's orders (R16, R18). -/
theorem WmbOrderly.restage {w : Wmb} (hw : WmbOrderly w) {f : Entry → Entry}
    (same : ∀ e, (f e).line = e.line ∧ (f e).held = e.held ∧ (f e).openOrder = e.openOrder)
    (opens : ∀ e, (f e).isOpen = e.isOpen) (orders : ∀ e, (f e).sealOrder = e.sealOrder) :
    WmbOrderly { w with entries := w.entries.map f } := by
  have line_eq : (fun e => (f e).line) = Entry.line := funext fun e => (same e).1
  have held_eq (e : Entry) : (f e).held = e.held := (same e).2.1
  have order_eq : (Entry.openOrder ∘ f) = Entry.openOrder := funext fun e => (same e).2.2
  have open_eq : (Entry.isOpen ∘ f) = Entry.isOpen := funext opens
  have openOrder_eq (e : Entry) : (f e).openOrder = e.openOrder := (same e).2.2
  exact {
    size := by simpa using hw.size
    openCount := by simpa [List.countP_map, open_eq] using hw.openCount
    rising := by simpa [List.map_map, order_eq] using hw.rising
    openBelow := by simpa [openOrder_eq] using hw.openBelow
    sealBelow := by simpa [opens, orders] using hw.sealBelow
    oneOpen := by
      have h := hw.oneOpen
      rw [List.filter_map, open_eq, List.pairwise_map]
      simpa [(same _).1] using h
    places := by simpa [held_eq] using hw.places
    notFull := by simpa [held_eq, opens] using hw.notFull
    boundary := hw.boundary }

/-- Freeing entries keeps the orders of those that stay (R17). -/
theorem WmbOrderly.freed {w : Wmb} (hw : WmbOrderly w) (p : Entry → Bool) :
    WmbOrderly { w with entries := w.entries.filter p } where
  size := Nat.le_trans (List.length_filter_le _ _) hw.size
  openCount := Nat.lt_of_le_of_lt (List.Sublist.countP_le List.filter_sublist) hw.openCount
  rising := hw.rising.sublist (List.filter_sublist.map _)
  openBelow := fun e he => hw.openBelow e (List.mem_filter.1 he).1
  sealBelow := fun e he => hw.sealBelow e (List.mem_filter.1 he).1
  oneOpen := hw.oneOpen.sublist (List.filter_sublist.filter _)
  places := fun e he => hw.places e (List.mem_filter.1 he).1
  notFull := fun e he => hw.notFull e (List.mem_filter.1 he).1
  boundary := hw.boundary

/-- The buffer with the OPEN entry of an open order SEALED under the next seal order (R7). -/
def Wmb.sealAt (id : Nat) (w : Wmb) : Wmb :=
  { w with
    entries := w.entries.map fun x =>
      if x.openOrder = id ∧ x.isOpen then { x with stage := .sealed w.sealCounter } else x
    sealCounter := w.sealCounter + 1 }

/-- The orders but for the bounds on OPEN entries, which an opening passes for a moment (R9, R10). -/
structure WmbNearlyOrderly (w : Wmb) : Prop where
  size : w.entries.length ≤ wmbSize
  rising : (w.entries.map (·.openOrder)).Pairwise (· < ·)
  openBelow : ∀ e ∈ w.entries, e.openOrder < w.openCounter
  sealBelow : ∀ e ∈ w.entries, e.isOpen = false → e.sealOrder < w.sealCounter
  oneOpen : (w.entries.filter Entry.isOpen).Pairwise fun a b => a.line ≠ b.line
  places : ∀ e ∈ w.entries, e.held.length = 32
  boundary : ∀ b, w.boundary = some b → b ≤ w.openCounter

theorem WmbOrderly.nearly {w : Wmb} (hw : WmbOrderly w) : WmbNearlyOrderly w := { hw with }

theorem Wmb.mem_sealAt {id : Nat} {w : Wmb} {e : Entry} (he : e ∈ (w.sealAt id).entries) :
    ∃ x ∈ w.entries, e.line = x.line ∧ e.held = x.held ∧ e.openOrder = x.openOrder ∧
      (e = x ∧ (x.openOrder = id → x.isOpen = false) ∨
        x.openOrder = id ∧ x.isOpen = true ∧ e.stage = .sealed w.sealCounter) := by
  obtain ⟨x, hx, rfl⟩ := List.mem_map.1 he
  refine ⟨x, hx, ?_⟩
  by_cases h : x.openOrder = id ∧ x.isOpen
  · simp [h]
  · simp only [h, if_false, true_and]
    refine .inl fun hid => ?_
    simpa [hid] using h

/-- The OPEN entries after a sealing are those before it but for the one sealed. -/
theorem Wmb.sealAt_open (id : Nat) (w : Wmb) :
    (w.sealAt id).entries.filter Entry.isOpen =
      (w.entries.filter Entry.isOpen).filter fun x => x.openOrder ≠ id := by
  let mark (x : Entry) : Entry :=
    if x.openOrder = id ∧ x.isOpen then { x with stage := .sealed w.sealCounter } else x
  have open_iff (x : Entry) : (mark x).isOpen = (x.isOpen && decide (x.openOrder ≠ id)) := by
    by_cases hid : x.openOrder = id <;> cases ho : x.isOpen <;> simp [mark, hid, ho]
    rfl
  have same (x : Entry) (hx : (mark x).isOpen = true) : mark x = x := by
    rw [open_iff] at hx
    simp only [Bool.and_eq_true, decide_eq_true_eq] at hx
    simp [mark, hx.2]
  change (w.entries.map mark).filter Entry.isOpen = _
  rw [List.filter_map, List.filter_filter]
  calc (w.entries.filter (Entry.isOpen ∘ mark)).map mark
      = (w.entries.filter (Entry.isOpen ∘ mark)).map (fun x => x) :=
        List.map_congr_left fun x hx => same x (List.mem_filter.1 hx).2
    _ = w.entries.filter (Entry.isOpen ∘ mark) := List.map_id' _
    _ = _ := List.filter_congr fun x _ => by rw [Function.comp_apply, open_iff, Bool.and_comm]

theorem WmbNearlyOrderly.sealAt {w : Wmb} (hw : WmbNearlyOrderly w) (id : Nat) :
    WmbNearlyOrderly (w.sealAt id) where
  size := by simpa [Wmb.sealAt] using hw.size
  rising := by
    unfold Wmb.sealAt
    dsimp only
    rw [openOrders_map_sealed]
    exact hw.rising
  openBelow := fun e he => by
    obtain ⟨x, hx, -, -, horder, -⟩ := Wmb.mem_sealAt he
    exact horder ▸ hw.openBelow x hx
  sealBelow := fun e he hopen => by
    obtain ⟨x, hx, -, -, -, ⟨rfl, -⟩ | ⟨-, -, hstage⟩⟩ := Wmb.mem_sealAt he
    · exact Nat.lt_succ_of_lt (hw.sealBelow e hx hopen)
    · simp [Entry.sealOrder, hstage, Wmb.sealAt]
  oneOpen := by
    rw [Wmb.sealAt_open]
    exact hw.oneOpen.sublist List.filter_sublist
  places := fun e he => by
    obtain ⟨x, hx, -, hheld, -⟩ := Wmb.mem_sealAt he
    exact hheld ▸ hw.places x hx
  boundary := hw.boundary

/-- An orderly buffer stays so when an entry is sealed (R7). -/
theorem WmbOrderly.sealAt {w : Wmb} (hw : WmbOrderly w) (id : Nat) : WmbOrderly (w.sealAt id) :=
  { hw.nearly.sealAt id with
    openCount := by
      have h := hw.openCount
      rw [List.countP_eq_length_filter] at h ⊢
      rw [Wmb.sealAt_open]
      exact Nat.lt_of_le_of_lt (List.length_filter_le _ _) h
    notFull := fun e he hopen => by
      obtain ⟨x, hx, -, -, -, ⟨rfl, -⟩ | ⟨-, -, hstage⟩⟩ := Wmb.mem_sealAt he
      · exact hw.notFull e hx hopen
      · simp [Entry.isOpen, hstage] at hopen }

/-! ### Sealing and taking writes -/

theorem exists_open_of_find {s : State} {id : Nat} {e : Entry}
    (h : s.wmb.entries.find? (fun e => e.openOrder == id && e.isOpen) = some e) :
    e ∈ s.wmb.entries ∧ e.openOrder = id ∧ e.isOpen = true := by
  have hp := List.find?_some h
  simp only [Bool.and_eq_true, beq_iff_eq] at hp
  exact ⟨List.mem_of_find?_eq_some h, hp⟩

/-- A sealing seals in the buffer, and asks of the map and the relocation queue at most BACKING for the
sector of its entry (R7). -/
theorem sealEntry_cases (id : Nat) (s : State) :
    (sealEntry id s = s ∧ ∀ e ∈ s.wmb.entries, e.openOrder = id → e.isOpen = false) ∨
    ∃ e ∈ s.wmb.entries, e.openOrder = id ∧ e.isOpen = true ∧
      (sealEntry id s = s.setWmb (s.wmb.sealAt id) ∨
        s.power.op ≠ .failed ∧ (mapEntry s e.sector).binding = none ∧
          (mapEntry s e.sector).releasing = false ∧
          sealEntry id s = requestReloc e.sector .backing (s.setWmb (s.wmb.sealAt id))) := by
  unfold sealEntry
  split
  next hnone =>
    refine .inl ⟨rfl, fun e he hid => ?_⟩
    simpa [hid] using List.find?_eq_none.mp hnone e he
  next e he =>
    obtain ⟨hmem, hid, hopen⟩ := exists_open_of_find he
    refine .inr ⟨e, hmem, hid, hopen, ?_⟩
    dsimp only
    split
    next h => exact .inr ⟨h.1, h.2.1, h.2.2, rfl⟩
    next => exact .inl rfl

/-- Sealing an OPEN entry leaves the buffer with that entry sealed. -/
theorem sealEntry_wmb {id : Nat} {s : State} {e : Entry} (he : e ∈ s.wmb.entries)
    (hid : e.openOrder = id) (hopen : e.isOpen = true) :
    (sealEntry id s).wmb = s.wmb.sealAt id := by
  rcases sealEntry_cases id s with ⟨-, hnone⟩ | ⟨x, -, -, -, h | ⟨-, -, -, h⟩⟩
  · exact absurd hopen (by simp [hnone e he hid])
  · rw [h]; rfl
  · rw [h, requestReloc_wmb]; rfl

theorem sealEntry_orderly {id : Nat} {s : State} (hw : WmbOrderly s.wmb) :
    WmbOrderly (sealEntry id s).wmb := by
  rcases sealEntry_cases id s with ⟨h, -⟩ | ⟨x, hx, hid, hopen, -⟩
  · rwa [h]
  · rw [sealEntry_wmb hx hid hopen]
    exact hw.sealAt id

/-- One OPEN entry fewer is left after a sealing. -/
theorem Wmb.sealAt_open_lt {w : Wmb} {e : Entry} (he : e ∈ w.entries) (hopen : e.isOpen = true) :
    (w.sealAt e.openOrder).entries.countP Entry.isOpen < w.entries.countP Entry.isOpen := by
  rw [List.countP_eq_length_filter, List.countP_eq_length_filter, Wmb.sealAt_open]
  exact List.length_filter_lt_length_iff_exists.2
    ⟨e, List.mem_filter.2 ⟨he, hopen⟩, by simp⟩

theorem mergeHeld_length (new old : List (Option Byte)) : (mergeHeld new old).length = 32 := by
  simp [mergeHeld]

/-- The buffer with a write's bytes merged into the entry of an open order (R5). -/
def Wmb.mergeAt (id : Nat) (bytes : List (Option Byte)) (w : Wmb) : Wmb :=
  { w with entries := w.entries.map fun x =>
      if x.openOrder = id then { x with held := mergeHeld bytes x.held } else x }

theorem Wmb.mem_mergeAt {id : Nat} {bytes : List (Option Byte)} {w : Wmb} {e : Entry}
    (he : e ∈ (w.mergeAt id bytes).entries) :
    ∃ x ∈ w.entries, e.line = x.line ∧ e.openOrder = x.openOrder ∧ e.stage = x.stage ∧
      (x.openOrder ≠ id ∧ e = x ∨ x.openOrder = id ∧ e.held = mergeHeld bytes x.held) := by
  obtain ⟨x, hx, rfl⟩ := List.mem_map.1 he
  refine ⟨x, hx, ?_⟩
  by_cases h : x.openOrder = id <;> simp [h]

theorem Wmb.mergeAt_openOrders (id : Nat) (bytes : List (Option Byte)) (w : Wmb) :
    (w.mergeAt id bytes).entries.map (·.openOrder) = w.entries.map (·.openOrder) := by
  simp only [Wmb.mergeAt, List.map_map]
  refine List.map_congr_left fun x _ => ?_
  by_cases h : x.openOrder = id <;> simp [h]

theorem Wmb.mergeAt_openLines (id : Nat) (bytes : List (Option Byte)) (w : Wmb) :
    ((w.mergeAt id bytes).entries.filter Entry.isOpen).map (·.line) =
      (w.entries.filter Entry.isOpen).map (·.line) := by
  unfold Wmb.mergeAt
  dsimp only
  induction w.entries with
  | nil => rfl
  | cons x rest ih =>
    have same : Entry.isOpen (if x.openOrder = id then { x with held := mergeHeld bytes x.held } else x)
        = x.isOpen := by split <;> rfl
    have line : Entry.line (if x.openOrder = id then { x with held := mergeHeld bytes x.held } else x)
        = x.line := by split <;> rfl
    by_cases ho : x.isOpen = true
    · simp only [List.map_cons, List.filter_cons, same, ho, if_true, ih, line]
    · simp only [List.map_cons, List.filter_cons, same, ho, if_false, ih, Bool.false_eq_true]

theorem WmbNearlyOrderly.mergeAt {w : Wmb} (hw : WmbNearlyOrderly w) (id : Nat)
    (bytes : List (Option Byte)) : WmbNearlyOrderly (w.mergeAt id bytes) where
  size := by simpa [Wmb.mergeAt] using hw.size
  rising := by rw [Wmb.mergeAt_openOrders]; exact hw.rising
  openBelow := fun e he => by
    obtain ⟨x, hx, -, horder, -⟩ := Wmb.mem_mergeAt he
    exact horder ▸ hw.openBelow x hx
  sealBelow := fun e he hopen => by
    obtain ⟨x, hx, -, -, hstage, -⟩ := Wmb.mem_mergeAt he
    have h := hw.sealBelow x hx
    simp only [Entry.isOpen, Entry.sealOrder, ← hstage] at h
    exact h hopen
  oneOpen := by
    rw [← List.pairwise_map (f := Entry.line) (R := (· ≠ ·)), Wmb.mergeAt_openLines,
      List.pairwise_map]
    exact hw.oneOpen
  places := fun e he => by
    obtain ⟨x, hx, -, -, -, ⟨-, rfl⟩ | ⟨-, hheld⟩⟩ := Wmb.mem_mergeAt he
    · exact hw.places e hx
    · rw [hheld, mergeHeld_length]
  boundary := hw.boundary

theorem Wmb.mergeAt_openCount (id : Nat) (bytes : List (Option Byte)) (w : Wmb) :
    (w.mergeAt id bytes).entries.countP Entry.isOpen = w.entries.countP Entry.isOpen := by
  have h := congrArg List.length (Wmb.mergeAt_openLines id bytes w)
  simpa [List.countP_eq_length_filter] using h

/-- A merge keeps the buffer's orders, the entry being sealed when its mask becomes full (R5, R9). -/
theorem mergeEntry_orderly {s : State} (hw : WmbOrderly s.wmb) {e : Entry}
    (he : e ∈ s.wmb.entries) (hopen : e.isOpen = true) (bytes : List (Option Byte)) :
    WmbOrderly (mergeEntry e bytes s).wmb := by
  have near := hw.nearly.mergeAt e.openOrder bytes
  have count : (s.wmb.mergeAt e.openOrder bytes).entries.countP Entry.isOpen < highWater := by
    rw [Wmb.mergeAt_openCount]; exact hw.openCount
  have fullIs : ∀ x ∈ (s.wmb.mergeAt e.openOrder bytes).entries, x.isOpen = true →
      fullMask x.held = true →
      x.openOrder = e.openOrder ∧ x.held = mergeHeld bytes e.held := by
    intro x hx hxo hfull
    obtain ⟨y, hy, -, horder, hstage, ⟨-, rfl⟩ | ⟨hid, hheld⟩⟩ := Wmb.mem_mergeAt hx
    · rw [hw.notFull x hy hxo] at hfull; cases hfull
    · obtain rfl := hw.eq_of_openOrder hy he hid
      exact ⟨horder, hheld⟩
  unfold mergeEntry
  dsimp only
  split
  next hfull =>
    have merged_mem : ({ e with held := mergeHeld bytes e.held } : Entry) ∈
        (s.wmb.mergeAt e.openOrder bytes).entries :=
      List.mem_map.2 ⟨e, he, by simp⟩
    rw [sealEntry_wmb (s := updateEntry _ _ s) merged_mem rfl hopen]
    refine { near.sealAt e.openOrder with
      openCount := ?_
      notFull := ?_ }
    · exact Nat.lt_trans (Wmb.sealAt_open_lt merged_mem hopen) count
    · intro x hx hxo
      obtain ⟨y, hy, -, -, -, ⟨rfl, hid⟩ | ⟨-, -, hstage⟩⟩ := Wmb.mem_sealAt hx
      · refine Bool.eq_false_iff.2 fun h => ?_
        rw [hid (fullIs x hy hxo h).1] at hxo
        cases hxo
      · simp [Entry.isOpen, hstage] at hxo
  next hfull =>
    exact { near with
      openCount := count
      notFull := fun x hx hxo => Bool.eq_false_iff.2 fun h =>
        hfull ((fullIs x hx hxo h).2 ▸ h) }

/-- The buffer with a FREE entry opened (R4). -/
def Wmb.openAt (line : LineNo) (bytes : List (Option Byte)) (w : Wmb) : Wmb :=
  { w with
    entries := w.entries ++ [⟨line, bytes, w.openCounter, .opened 0⟩]
    openCounter := w.openCounter + 1 }

theorem WmbNearlyOrderly.openAt {w : Wmb} (hw : WmbNearlyOrderly w) {line : LineNo}
    {bytes : List (Option Byte)} (room : w.entries.length < wmbSize) (places : bytes.length = 32)
    (fresh : ∀ e ∈ w.entries, e.isOpen = true → e.line ≠ line) :
    WmbNearlyOrderly (w.openAt line bytes) where
  size := by simpa [Wmb.openAt] using room
  rising := by
    simp only [Wmb.openAt, List.map_append, List.pairwise_append]
    exact ⟨hw.rising, by simp, by simpa using hw.openBelow⟩
  openBelow := by
    simp only [Wmb.openAt, List.mem_append, List.mem_singleton]
    rintro e (he | rfl)
    · exact Nat.lt_succ_of_lt (hw.openBelow e he)
    · exact Nat.lt_succ_self _
  sealBelow := by
    simp only [Wmb.openAt, List.mem_append, List.mem_singleton]
    rintro e (he | rfl) hopen
    · exact hw.sealBelow e he hopen
    · cases hopen
  oneOpen := by
    simp only [Wmb.openAt, List.filter_append, List.pairwise_append]
    refine ⟨hw.oneOpen, List.pairwise_singleton _ _, ?_⟩
    intro a ha b hb
    obtain rfl : b = ⟨line, bytes, w.openCounter, .opened 0⟩ := by
      simpa using (List.mem_filter.1 hb).1
    exact fresh a (List.mem_filter.1 ha).1 (List.mem_filter.1 ha).2
  places := by
    simp only [Wmb.openAt, List.mem_append, List.mem_singleton]
    rintro e (he | rfl)
    · exact hw.places e he
    · exact places
  boundary := fun b hb => Nat.le_succ_of_le (hw.boundary b hb)

/-- An opening keeps the buffer's orders, the oldest OPEN entry being sealed at the high-water mark (R4,
R8, R10). -/
theorem openEntry_orderly {s : State} (hw : WmbOrderly s.wmb) {line : LineNo}
    {bytes : List (Option Byte)} (room : s.wmb.entries.length < wmbSize)
    (places : bytes.length = 32) (notFull : fullMask bytes = false)
    (fresh : ∀ e ∈ s.wmb.entries, e.isOpen = true → e.line ≠ line) :
    WmbOrderly (openEntry line bytes s).wmb := by
  have near := hw.nearly.openAt (line := line) room places fresh
  have new_mem : (⟨line, bytes, s.wmb.openCounter, .opened 0⟩ : Entry) ∈
      (s.wmb.openAt line bytes).entries := by simp [Wmb.openAt]
  have count : (s.wmb.openAt line bytes).entries.countP Entry.isOpen ≤ highWater := by
    have h := hw.openCount
    simp only [Wmb.openAt, List.countP_append]
    simpa [Entry.isOpen] using h
  have unfull : ∀ e ∈ (s.wmb.openAt line bytes).entries, e.isOpen = true →
      fullMask e.held = false := by
    simp only [Wmb.openAt, List.mem_append, List.mem_singleton]
    rintro e (he | rfl) hopen
    · exact hw.notFull e he hopen
    · exact notFull
  -- what an opening leaves before the rule of the high-water mark
  have after : WmbNearlyOrderly (afterOpening line bytes s).wmb ∧
      (afterOpening line bytes s).wmb.entries.countP Entry.isOpen ≤ highWater ∧
      ∀ e ∈ (afterOpening line bytes s).wmb.entries, e.isOpen = true → fullMask e.held = false := by
    unfold afterOpening
    dsimp only
    split
    · have sealed := sealEntry_wmb (s := { s with wmb := s.wmb.openAt line bytes }) new_mem rfl rfl
      unfold Wmb.openAt at sealed
      rw [sealed]
      refine ⟨near.sealAt _, Nat.le_of_lt (Nat.lt_of_lt_of_le (Wmb.sealAt_open_lt new_mem rfl) count),
        fun e he hopen => ?_⟩
      obtain ⟨x, hx, -, -, -, ⟨rfl, -⟩ | ⟨-, -, hstage⟩⟩ := Wmb.mem_sealAt he
      · exact unfull e hx hopen
      · simp [Entry.isOpen, hstage] at hopen
    · exact ⟨near, count, unfull⟩
  obtain ⟨near, count, unfull⟩ := after
  rw [openEntry_eq]
  split
  next hhigh =>
    unfold sealOldest
    split
    next e he =>
      have hmem := List.mem_of_find?_eq_some he
      have hopen := List.find?_some he
      rw [sealEntry_wmb hmem rfl hopen]
      refine { near.sealAt _ with
        openCount := Nat.lt_of_lt_of_le (Wmb.sealAt_open_lt hmem hopen) count
        notFull := fun x hx hxo => ?_ }
      obtain ⟨y, hy, -, -, -, ⟨rfl, -⟩ | ⟨-, -, hstage⟩⟩ := Wmb.mem_sealAt hx
      · exact unfull x hy hxo
      · simp [Entry.isOpen, hstage] at hxo
    next hnone =>
      have none_open : (afterOpening line bytes s).wmb.entries.countP Entry.isOpen = 0 := by
        simpa [List.countP_eq_zero] using hnone
      exact { near with
        openCount := by rw [none_open]; decide
        notFull := unfull }
  next hlow =>
    exact { near with
      openCount := Nat.lt_of_le_of_lt List.countP_le_length (Nat.lt_of_not_le hlow)
      notFull := unfull }

theorem writeBytes_length (c : HostCycle) (data : HostWord) : (writeBytes c data).length = 32 := by
  simp [writeBytes]

/-- A host write presents two bytes at most, so it fills no mask of itself (R132). -/
theorem writeBytes_notFull (c : HostCycle) (data : HostWord) :
    fullMask (writeBytes c data) = false := by
  refine Bool.eq_false_iff.2 fun h => ?_
  have held (i : Nat) (hi : i < 32) := (fullMask_iff _).1 h i hi
  have near (i : Nat) (hi : i < 32) :
      i = 2 * (c.addr.toNat % 16) ∨ i = 2 * (c.addr.toNat % 16) + 1 := by
    have hh := held i hi
    rw [heldByte_writeBytes c data hi] at hh
    by_contra hne
    rw [not_or] at hne
    exact hh (by simp [hne.1, hne.2])
  have h0 := near 0 (by omega)
  have h2 := near 2 (by omega)
  omega

theorem presentWrite_orderly {s t : State} (hw : WmbOrderly s.wmb) {c : HostCycle} {data : HostWord}
    {line : LineNo} (h : presentWrite line (writeBytes c data) s = some t) : WmbOrderly t.wmb := by
  unfold presentWrite at h
  split at h
  next e he =>
    have hp := List.find?_some he
    simp only [Bool.and_eq_true] at hp
    obtain rfl := Option.some.inj h
    exact mergeEntry_orderly hw (List.mem_of_find?_eq_some he) hp.1 _
  next hnone =>
    split at h
    next room =>
      obtain rfl := Option.some.inj h
      refine openEntry_orderly hw room (writeBytes_length _ _) (writeBytes_notFull _ _) ?_
      intro e he hopen hline
      simpa [hopen, hline] using List.find?_eq_none.mp hnone e he
    next => cases h

end Sys2Proof.Machine
end

section
/-!
PROOFS. `Keeps`: what the state before and after some writes of one command have in common. One lemma
for each write to a block, one for each shared operation.
-/

namespace Sys2Proof.Machine

open Sys2Proof

/-! ### A sealing is a write to the buffer and requests for BACKING -/

/-- `t` is `s` with another buffer and with requests for BACKING made. -/
def AsksAfter (s t : State) : Prop :=
  ∃ (ls : List Sector) (w : Wmb), t = ls.foldl (fun u l => requestReloc l .backing u) (s.setWmb w)

theorem requestReloc_setWmb (l : Sector) (reason : RelocReason) (s : State) (w : Wmb) :
    (requestReloc l reason s).setWmb w = requestReloc l reason (s.setWmb w) := by
  have same_entry : mapEntry (s.setWmb w) l = mapEntry s l := rfl
  unfold requestReloc
  rw [same_entry]
  dsimp only
  split <;> rfl

theorem AsksAfter.refl (s : State) : AsksAfter s s := ⟨[], s.wmb, rfl⟩

theorem AsksAfter.setWmb {s t : State} (h : AsksAfter s t) (w : Wmb) : AsksAfter s (t.setWmb w) := by
  obtain ⟨ls, v, rfl⟩ := h
  refine ⟨ls, w, ?_⟩
  induction ls using List.reverseRecOn with
  | nil => rfl
  | append_singleton rest l ih => simp only [List.foldl_append, List.foldl_cons, List.foldl_nil,
      requestReloc_setWmb, ih]

theorem AsksAfter.requestReloc {s t : State} (h : AsksAfter s t) (l : Sector) :
    AsksAfter s (requestReloc l .backing t) := by
  obtain ⟨ls, w, rfl⟩ := h
  exact ⟨ls ++ [l], w, by simp⟩

theorem AsksAfter.sealEntry {s t : State} (h : AsksAfter s t) (id : Nat) :
    AsksAfter s (sealEntry id t) := by
  rcases sealEntry_cases id t with ⟨e, -⟩ | ⟨x, -, -, -, e | ⟨-, -, -, e⟩⟩ <;> rw [e]
  · exact h
  · exact h.setWmb _
  · exact (h.setWmb _).requestReloc _

theorem AsksAfter.sealList {s t : State} (h : AsksAfter s t) (ids : List Nat) :
    AsksAfter s (ids.foldl (fun u id => Machine.sealEntry id u) t) := by
  induction ids generalizing t with
  | nil => exact h
  | cons id rest ih => exact ih (h.sealEntry id)

theorem AsksAfter.sealOldest {s t : State} (h : AsksAfter s t) : AsksAfter s (sealOldest t) := by
  unfold Machine.sealOldest
  split
  · exact h.sealEntry _
  · exact h

theorem AsksAfter.openEntry {s t : State} (h : AsksAfter s t) (line : LineNo)
    (bytes : List (Option Byte)) : AsksAfter s (openEntry line bytes t) := by
  have after : AsksAfter s (afterOpening line bytes t) := by
    unfold afterOpening
    dsimp only
    split
    · exact (h.setWmb _).sealEntry _
    · exact h.setWmb _
  rw [openEntry_eq]
  split
  · exact after.sealOldest
  · exact after

theorem AsksAfter.mergeEntry {s t : State} (h : AsksAfter s t) (e : Entry)
    (bytes : List (Option Byte)) : AsksAfter s (mergeEntry e bytes t) := by
  unfold Machine.mergeEntry
  dsimp only
  split
  · exact (h.setWmb _).sealEntry _
  · exact h.setWmb _

theorem AsksAfter.of_presentWrite {s t : State} {line : LineNo} {bytes : List (Option Byte)}
    (h : presentWrite line bytes s = some t) : AsksAfter s t := by
  unfold presentWrite at h
  split at h
  · obtain rfl := Option.some.inj h
    exact (AsksAfter.refl s).mergeEntry _ _
  · split at h
    · obtain rfl := Option.some.inj h
      exact (AsksAfter.refl s).openEntry _ _
    · cases h

/-! ### What is kept -/

/-- What a command but a reset keeps between two of its moments. Bindings change at a switch, the end of
a release and the end of the scan; a sector can leave the six sets at the end of the scan; counters fall
at CLEAR COUNTERS. -/
structure Keeps (c : Instr) (s t : State) : Prop where
  tables : TablesCanonical s → TablesCanonical t
  wmb : WmbOrderly s.wmb → WmbOrderly t.wmb
  pauses : PausesBounded s → PausesBounded t
  regions : RegionsOrdered s → RegionsOrdered t
  link : LinkBounded s → LinkBounded t
  op : t.power.op = .starting → s.power.op = .starting
  degraded : s.power.degraded = some .generation → t.power.degraded = some .generation
  binding : mayRebind c = false → ∀ l, (mapEntry t l).binding = (mapEntry s l).binding
  frozen : ∀ i, (regionAt s i).frozen = true → regionAt t i = regionAt s i
  member : c ≠ .scanEnd → ∀ p, (membershipOf s p).isSome → (membershipOf t p).isSome
  counters : ¬ clearsCounters c → s.link.counters.noneBelow t.link.counters

theorem Counters.noneBelow_refl (a : Counters) : a.noneBelow a := by
  simp [Counters.noneBelow]

theorem Counters.noneBelow_trans {a b c : Counters} (h : a.noneBelow b) (h' : b.noneBelow c) :
    a.noneBelow c := by
  obtain ⟨h1, h2, h3, h4, h5, h6, h7, h8, h9, h10⟩ := h
  obtain ⟨k1, k2, k3, k4, k5, k6, k7, k8, k9, k10⟩ := h'
  exact ⟨BitVec.le_trans h1 k1, BitVec.le_trans h2 k2, BitVec.le_trans h3 k3,
    BitVec.le_trans h4 k4, BitVec.le_trans h5 k5, BitVec.le_trans h6 k6, BitVec.le_trans h7 k7,
    BitVec.le_trans h8 k8, BitVec.le_trans h9 k9, BitVec.le_trans h10 k10⟩

theorem satAdd_toNat (c : BitVec 32) (n : Nat) :
    (satAdd c n).toNat = min 4294967295 (c.toNat + n) := by
  have hc := c.isLt
  unfold satAdd
  split
  · rw [BitVec.toNat_add, BitVec.toNat_ofNat]; omega
  · simp; omega

theorem le_satAdd (c : BitVec 32) (n : Nat) : c ≤ satAdd c n := by
  have hc := c.isLt
  rw [BitVec.le_def, satAdd_toNat]
  omega

/-- No counter falls when one rises (R176). -/
theorem Counters.noneBelow_add (c : Counters) (k : CounterName) (n : Nat) :
    c.noneBelow (c.add k n) := by
  cases k <;> simp [Counters.noneBelow, Counters.add, le_satAdd]

theorem Keeps.refl (c : Instr) (s : State) : Keeps c s s where
  tables := id
  wmb := id
  pauses := id
  regions := id
  link := id
  op := id
  degraded := id
  binding := fun _ _ => rfl
  frozen := fun _ _ => rfl
  member := fun _ _ => id
  counters := fun _ => Counters.noneBelow_refl _

theorem Keeps.trans {c : Instr} {s t u : State} (h : Keeps c s t) (h' : Keeps c t u) :
    Keeps c s u where
  tables := h'.tables ∘ h.tables
  wmb := h'.wmb ∘ h.wmb
  pauses := h'.pauses ∘ h.pauses
  regions := h'.regions ∘ h.regions
  link := h'.link ∘ h.link
  op := h.op ∘ h'.op
  degraded := h'.degraded ∘ h.degraded
  binding := fun hc l => (h'.binding hc l).trans (h.binding hc l)
  frozen := fun i hi => (h'.frozen i (by rw [h.frozen i hi, hi])).trans (h.frozen i hi)
  member := fun hc p => h'.member hc p ∘ h.member hc p
  counters := fun hc => Counters.noneBelow_trans (h.counters hc) (h'.counters hc)

/-- A frame that stands is run as the management command it spells (R167). -/
theorem runFrame_cases (c : Instr) (s : State) :
    runFrame c s = .next s ∨ (commandParts c).isSome = true ∧ runFrame c s = exec c s := by
  cases c
  case status | flush | readRegion | writeRegion | freezeRegion | readCounters | clearCounters
    | readFault | mapQuery | sectorQuery | releaseSector | setTiming | eventEnable =>
    exact .inr ⟨rfl, rfl⟩
  all_goals exact .inl rfl

/-- A management command rebinds nothing, ends no scan and begins no reset. -/
theorem commandParts_plain {c : Instr} (h : (commandParts c).isSome = true) :
    mayRebind c = false ∧ c ≠ .scanEnd ∧ isReset c = false ∧ ∀ bytes, c ≠ .badCommandFrame bytes := by
  cases c
  case status | flush | readRegion | writeRegion | freezeRegion | readCounters | clearCounters
    | readFault | mapQuery | sectorQuery | releaseSector | setTiming | eventEnable =>
    exact ⟨rfl, Instr.noConfusion, rfl, fun _ => Instr.noConfusion⟩
  all_goals cases h

/-- What a command of a frame keeps, the frame that spells it keeps. -/
theorem Keeps.of_frame {c : Instr} {bytes : List Byte} {s t : State} (h : Keeps c s t)
    (hj : judgeFrame bytes = .command c) (hc : (commandParts c).isSome = true) :
    Keeps (.badCommandFrame bytes) s t := by
  obtain ⟨rebinds, scans, -, frames⟩ := commandParts_plain hc
  exact { h with
    binding := fun _ => h.binding rebinds
    member := fun _ => h.member scans
    counters := fun hn => h.counters fun hclear => by
      rcases hclear with rfl | ⟨b, rfl, -⟩
      · exact hn (.inr ⟨bytes, rfl, hj⟩)
      · exact frames b rfl }

/-! ### Writes to a block -/

section Writes

variable {c : Instr} {s t : State}

theorem Keeps.setPower (h : Keeps c s t) {p : Power}
    (op : p.op = .starting → t.power.op = .starting)
    (degraded : t.power.degraded = some .generation → p.degraded = some .generation) :
    Keeps c s (t.setPower p) :=
  h.trans { Keeps.refl c t with tables := fun ht => { ht with }, op := op, degraded := degraded }

theorem Keeps.setWmb (h : Keeps c s t) {w : Wmb} (wmb : WmbOrderly t.wmb → WmbOrderly w) :
    Keeps c s (t.setWmb w) :=
  h.trans { Keeps.refl c t with tables := fun ht => { ht with }, wmb := wmb }

theorem Keeps.setMap (h : Keeps c s t) {m : Table MapEntry}
    (canonical : TablesCanonical t → Table.Canonical MapEntry.unbacked m)
    (binding : mayRebind c = false → ∀ l, (mapEntry (t.setMap m) l).binding = (mapEntry t l).binding) :
    Keeps c s (t.setMap m) :=
  h.trans { Keeps.refl c t with
    tables := fun ht => { ht with map := canonical ht }, binding := binding }

theorem Keeps.setAcct (h : Keeps c s t) {a : Accounting}
    (sorted : TablesCanonical t → Table.Sorted a.recs)
    (member : c ≠ .scanEnd → ∀ p, (membershipOf t p).isSome → (membershipOf (t.setAcct a) p).isSome) :
    Keeps c s (t.setAcct a) :=
  h.trans { Keeps.refl c t with
    tables := fun ht => { ht with recs := sorted ht }, member := member }

theorem Keeps.setLanes (h : Keeps c s t) {x : PerDie Lane} : Keeps c s (t.setLanes x) :=
  h.trans { Keeps.refl c t with tables := fun ht => { ht with } }

theorem Keeps.setReloc (h : Keeps c s t) {x : Relocation} : Keeps c s (t.setReloc x) :=
  h.trans { Keeps.refl c t with tables := fun ht => { ht with } }

theorem Keeps.setErase (h : Keeps c s t) {x : EraseEngine} : Keeps c s (t.setErase x) :=
  h.trans { Keeps.refl c t with tables := fun ht => { ht with } }

theorem Keeps.setRelease (h : Keeps c s t) {x : Option Release} : Keeps c s (t.setRelease x) :=
  h.trans { Keeps.refl c t with tables := fun ht => { ht with } }

theorem Keeps.setDraws (h : Keeps c s t) {x : Nat} : Keeps c s (t.setDraws x) :=
  h.trans { Keeps.refl c t with tables := fun ht => { ht with } }

theorem Keeps.setNow (h : Keeps c s t) {x : Nat} : Keeps c s (t.setNow x) :=
  h.trans { Keeps.refl c t with tables := fun ht => { ht with } }

theorem Keeps.setDies (h : Keeps c s t) {ds : PerDie Die}
    (pauses : PausesBounded t → PausesBounded (t.setDies ds)) : Keeps c s (t.setDies ds) :=
  h.trans { Keeps.refl c t with tables := fun ht => { ht with }, pauses := pauses }

theorem Keeps.setHost (h : Keeps c s t) {x : HostPort}
    (threshold : t.host.threshold ≠ 0 → x.threshold ≠ 0) : Keeps c s (t.setHost x) :=
  h.trans { Keeps.refl c t with
    tables := fun ht => { ht with }, link := fun hl => ⟨hl.1, threshold hl.2⟩ }

theorem Keeps.setScan (h : Keeps c s t) {x : Scanner}
    (classes : TablesCanonical t → Table.Sorted x.classes)
    (candidates : TablesCanonical t → Table.Sorted x.candidates) : Keeps c s (t.setScan x) :=
  h.trans { Keeps.refl c t with
    tables := fun ht => { ht with classes := classes ht, candidates := candidates ht } }

theorem Keeps.setMedium (h : Keeps c s t) {m : Memory}
    (wf : TablesCanonical t → m.wf) : Keeps c s (t.setMedium m) :=
  h.trans { Keeps.refl c t with tables := fun ht => { ht with medium := wf ht } }

theorem Keeps.setLink (h : Keeps c s t) {x : Link}
    (faults : t.link.faults.length ≤ faultQueueSize → x.faults.length ≤ faultQueueSize)
    (counters : ¬ clearsCounters c → t.link.counters.noneBelow x.counters) :
    Keeps c s (t.setLink x) :=
  h.trans { Keeps.refl c t with
    tables := fun ht => { ht with }, link := fun hl => ⟨faults hl.1, hl.2⟩, counters := counters }

/-- A region entry is replaced where it is not frozen, or keeps its fields where it is. -/
theorem Keeps.setRegion (h : Keeps c s t) {i : Fin 16} {r : Region}
    (ordered : RegionsOrdered t → r.first ≤ r.last)
    (frozen : (regionAt t i).frozen = true → r = regionAt t i) : Keeps c s (setRegion i r t) :=
  h.trans { Keeps.refl c t with
    tables := fun ht => { ht with regions := Table.store_canonical _ _ ht.regions }
    regions := fun ht x hx => by
      have hx : x ∈ Table.store Region.atPor t.regions i.val r := hx
      unfold Table.store at hx
      split at hx
      · exact ht x (List.mem_filter.1 hx).1
      · rcases Table.mem_insert.1 hx with rfl | hx
        · exact ordered ht
        · exact ht x (List.mem_filter.1 hx).1
    frozen := fun x hx => by
      by_cases hxi : x = i
      · subst hxi; rw [regionAt_setRegion_same, frozen hx]
      · exact regionAt_setRegion_other r t hxi }

end Writes

/-! ### Chains of writes -/

/-- `t` comes of `s` by writes to the blocks as the operations make them, of which none changes the medium
or the state of a die. -/
inductive Writes (c : Instr) (s : State) : State → Prop where
  | refl : Writes c s s
  | setPower {t : State} {p : Power} (h : Writes c s t)
      (op : p.op = .starting → t.power.op = .starting)
      (degraded : t.power.degraded = some .generation → p.degraded = some .generation) :
      Writes c s (t.setPower p)
  | setWmb {t : State} {w : Wmb} (h : Writes c s t) (wmb : WmbOrderly t.wmb → WmbOrderly w) :
      Writes c s (t.setWmb w)
  | setMap {t : State} {m : Table MapEntry} (h : Writes c s t)
      (canonical : TablesCanonical t → Table.Canonical MapEntry.unbacked m)
      (binding : mayRebind c = false →
        ∀ l, (mapEntry (t.setMap m) l).binding = (mapEntry t l).binding) :
      Writes c s (t.setMap m)
  | setAcct {t : State} {a : Accounting} (h : Writes c s t)
      (sorted : TablesCanonical t → Table.Sorted a.recs)
      (member : c ≠ .scanEnd →
        ∀ p, (membershipOf t p).isSome → (membershipOf (t.setAcct a) p).isSome) :
      Writes c s (t.setAcct a)
  | setLanes {t : State} {x : PerDie Lane} (h : Writes c s t) : Writes c s (t.setLanes x)
  | setReloc {t : State} {x : Relocation} (h : Writes c s t) : Writes c s (t.setReloc x)
  | setErase {t : State} {x : EraseEngine} (h : Writes c s t) : Writes c s (t.setErase x)
  | setRelease {t : State} {x : Option Release} (h : Writes c s t) : Writes c s (t.setRelease x)
  | setHost {t : State} {x : HostPort} (h : Writes c s t)
      (threshold : t.host.threshold ≠ 0 → x.threshold ≠ 0) : Writes c s (t.setHost x)
  | setScan {t : State} {x : Scanner} (h : Writes c s t)
      (classes : TablesCanonical t → Table.Sorted x.classes)
      (candidates : TablesCanonical t → Table.Sorted x.candidates) : Writes c s (t.setScan x)
  | setLink {t : State} {x : Link} (h : Writes c s t)
      (faults : t.link.faults.length ≤ faultQueueSize → x.faults.length ≤ faultQueueSize)
      (counters : ¬ clearsCounters c → t.link.counters.noneBelow x.counters) :
      Writes c s (t.setLink x)
  | setRegion {t : State} {i : Fin 16} {r : Region} (h : Writes c s t)
      (ordered : RegionsOrdered t → r.first ≤ r.last)
      (frozen : (regionAt t i).frozen = true → r = regionAt t i) : Writes c s (setRegion i r t)
  | issue {t : State} {who : Requester} {op : DieOp} (h : Writes c s t) : Writes c s (issue who op t)

theorem PausesBounded.get {s : State} (h : PausesBounded s) (d : DieId) :
    (s.dies.get d).state.withinBudget := by
  cases d
  · exact h.1
  · exact h.2

theorem Keeps.setDie {c : Instr} {s t : State} (h : Keeps c s t) {d : DieId} {x : Die}
    (pauses : PausesBounded t → x.state.withinBudget) : Keeps c s (setDie d x t) :=
  h.setDies fun ht => by
    cases d
    · exact ⟨pauses ht, ht.2⟩
    · exact ⟨ht.1, pauses ht⟩

theorem Writes.keeps {c : Instr} {s t : State} (h : Writes c s t) : Keeps c s t := by
  induction h with
  | refl => exact Keeps.refl c s
  | setPower _ op degraded ih => exact ih.setPower op degraded
  | setWmb _ wmb ih => exact ih.setWmb wmb
  | setMap _ canonical binding ih => exact ih.setMap canonical binding
  | setAcct _ sorted member ih => exact ih.setAcct sorted member
  | setLanes _ ih => exact ih.setLanes
  | setReloc _ ih => exact ih.setReloc
  | setErase _ ih => exact ih.setErase
  | setRelease _ ih => exact ih.setRelease
  | setHost _ threshold ih => exact ih.setHost threshold
  | setScan _ classes candidates ih => exact ih.setScan classes candidates
  | setLink _ faults counters ih => exact ih.setLink faults counters
  | setRegion _ ordered frozen ih => exact ih.setRegion ordered frozen
  | issue _ ih => exact ih.setDie fun ht => ht.get _

/-- Writes leave the medium and the state of each die alone. -/
theorem Writes.still {c : Instr} {s t : State} (h : Writes c s t) :
    t.medium = s.medium ∧ ∀ d, (t.dies.get d).state = (s.dies.get d).state := by
  induction h with
  | refl => exact ⟨rfl, fun _ => rfl⟩
  | issue _ ih => exact ⟨ih.1, fun d => (issue_state _ _ _ d).trans (ih.2 d)⟩
  | _ => assumption

/-- A command goes on with writes. -/
theorem Keeps.andThen {c : Instr} {s t u : State} (h : Keeps c s t) (w : Writes c t u) :
    Keeps c s u := h.trans w.keeps

section SharedOperations

variable {c : Instr} {s t : State}

/-! ### The shared operations -/

theorem Writes.record (h : Writes c s t) {b : RecordBody} : Writes c s (record b t) := by
  unfold Machine.record
  split
  next room =>
    exact h.setLink (fun _ => by simpa using room) fun _ => Counters.noneBelow_refl _
  next => exact h.setLink id fun _ => Counters.noneBelow_refl _

theorem Writes.countUp (h : Writes c s t) {k : CounterName} {n : Nat} : Writes c s (countUp k n t) :=
  h.setLink id fun _ => Counters.noneBelow_add _ _ _

theorem Writes.setMapEntry (h : Writes c s t) {l : Sector} {e : MapEntry}
    (binding : mayRebind c = false → e.binding = (mapEntry t l).binding) :
    Writes c s (setMapEntry l e t) :=
  h.setMap (fun ht => Table.store_canonical _ _ ht.map) fun hc x => by
    by_cases hx : x = l
    · subst hx; exact (congrArg _ (mapEntry_setMapEntry_same x e t)).trans (binding hc)
    · exact congrArg _ (mapEntry_setMapEntry_other e t hx)

theorem Writes.requestReloc (h : Writes c s t) {l : Sector} {reason : RelocReason} :
    Writes c s (requestReloc l reason t) := by
  unfold Machine.requestReloc
  dsimp only
  split
  case h_1 | h_2 | h_3 | h_5 => exact h.setReloc.setMapEntry fun _ => rfl
  case h_4 | h_6 | h_8 => exact h
  case h_7 => exact h.setMapEntry fun _ => rfl

theorem Writes.asks (h : Writes c s t) {u : State} (asks : AsksAfter t u)
    (wmb : WmbOrderly t.wmb → WmbOrderly u.wmb) : Writes c s u := by
  obtain ⟨ls, w, rfl⟩ := asks
  have wmb_eq : (ls.foldl (fun u l => Machine.requestReloc l .backing u) (t.setWmb w)).wmb = w := by
    clear wmb
    induction ls using List.reverseRecOn with
    | nil => rfl
    | append_singleton rest l ih => simpa using ih
  rw [wmb_eq] at wmb
  replace h : Writes c s (t.setWmb w) := h.setWmb wmb
  clear wmb wmb_eq
  induction ls using List.reverseRecOn with
  | nil => exact h
  | append_singleton rest l ih => simpa using ih.requestReloc

theorem Writes.sealEntry (h : Writes c s t) {id : Nat} : Writes c s (sealEntry id t) :=
  h.asks ((AsksAfter.refl t).sealEntry id) sealEntry_orderly

theorem Writes.sealWhere (h : Writes c s t) {p : Entry → Bool} : Writes c s (sealWhere p t) := by
  unfold Machine.sealWhere
  generalize (t.wmb.entries.filter fun e => e.isOpen && p e).map (·.openOrder) = ids
  induction ids generalizing t with
  | nil => exact h
  | cons id rest ih => exact ih h.sealEntry

theorem Writes.sealAll (h : Writes c s t) : Writes c s (sealAll t) := h.sealWhere

theorem Writes.presentWrite (h : Writes c s t) {cycle : HostCycle} {data : HostWord} {line : LineNo}
    {u : State} (hu : presentWrite line (writeBytes cycle data) t = some u) : Writes c s u :=
  h.asks (.of_presentWrite hu) fun hw => presentWrite_orderly hw hu

theorem Writes.setEntries_map (h : Writes c s t) {f : Entry → Entry}
    (same : ∀ e, (f e).line = e.line ∧ (f e).held = e.held ∧ (f e).openOrder = e.openOrder)
    (opens : ∀ e, (f e).isOpen = e.isOpen) (orders : ∀ e, (f e).sealOrder = e.sealOrder) :
    Writes c s (setEntries (t.wmb.entries.map f) t) :=
  h.setWmb fun hw => hw.restage same opens orders

theorem Writes.freeWhere (h : Writes c s t) {p : Entry → Bool} : Writes c s (freeWhere p t) :=
  h.setWmb fun hw => hw.freed _

theorem Writes.discardWhere (h : Writes c s t) {p : Entry → Bool} : Writes c s (discardWhere p t).1 :=
  h.freeWhere.countUp

theorem Writes.withRec (h : Writes c s t) {p : Phys} {m : Membership} {n : EraseCount} :
    Writes c s (t.setAcct (t.acct.withRec p m n)) :=
  h.setAcct (fun ht => Table.put_sorted _ _ ht.recs) fun _ q hq => by
    unfold membershipOf Accounting.withRec
    by_cases hqp : q = p
    · subst hqp; simp
    · have hv : q.val ≠ p.val := fun hv => hqp (Fin.ext hv)
      simpa [membershipOf, Table.find_put_other _ _ hv] using hq

/-- The lists of sector accounting tell of no record. -/
theorem Writes.setLists (h : Writes c s t) {a : Accounting} (recs : a.recs = t.acct.recs) :
    Writes c s (t.setAcct a) :=
  h.setAcct (fun ht => recs ▸ ht.recs) fun _ p hp => by
    simpa [membershipOf, recs] using hp

theorem Writes.moveTo (h : Writes c s t) {m : Membership} {p : Phys} : Writes c s (moveTo m p t) :=
  h.withRec

theorem Writes.joinPool (h : Writes c s t) {p : Phys} {n : EraseCount} : Writes c s (joinPool p n t) :=
  h.withRec.setLists rfl

theorem Writes.joinEraseQueue (h : Writes c s t) {p : Phys} : Writes c s (joinEraseQueue p t) :=
  h.moveTo.setLists rfl

theorem Writes.joinRetired (h : Writes c s t) {p : Phys} {why : RetireReason} :
    Writes c s (joinRetired p why t) :=
  Writes.countUp (h.moveTo.setLists (a := { (Machine.moveTo .retired p t).acct with
    retired := (Machine.moveTo .retired p t).acct.retired ++ [⟨p, why⟩] }) rfl)

theorem Writes.setPort (h : Writes c s t) {p : Port} : Writes c s (setPort p t) := h.setHost id

theorem Writes.countStall (h : Writes c s t) : Writes c s (countStall t) := by
  unfold Machine.countStall
  split
  · split
    · exact h.setPort.countUp
    · exact h
  · exact h

/-! ### The dies and time -/

theorem Keeps.setDieState (h : Keeps c s t) {d : DieId} {x : DieState}
    (pauses : PausesBounded t → x.withinBudget) : Keeps c s (setDieState d x t) :=
  h.setDie pauses

theorem Keeps.cutInProgress (h : Keeps c s t) {d : DieId} : Keeps c s (cutInProgress d t) := by
  unfold Machine.cutInProgress
  split
  case h_1 => exact (h.setMedium fun ht => Memory.cutProgram_wf _ _ ht.medium).setDraws
  case h_2 | h_3 | h_4 | h_5 => exact (h.setMedium fun ht => Memory.cutErase_wf _ _ ht.medium).setDraws
  case h_6 | h_7 | h_8 | h_9 => exact h

theorem Keeps.dieReset (h : Keeps c s t) {d : DieId} {cause : ResetCause} :
    Keeps c s (dieReset d cause t) :=
  h.cutInProgress.setDieState fun _ => trivial

theorem takenState_withinBudget (r : Request) : (takenState r).withinBudget := by
  unfold takenState
  split <;> simp [DieState.withinBudget]

theorem Keeps.settleDie (h : Keeps c s t) {d : DieId} : Keeps c s (settleDie d t) := by
  unfold Machine.settleDie
  dsimp only
  split
  · exact h
  · split
    next =>
      split
      · exact h.setDie fun _ => takenState_withinBudget _
      · exact h.setDie fun ht => ht.get d
    next run abandon hst =>
      have held (ht : PausesBounded t) : run.pauses ≤ pauseBudget := by
        simpa [hst, DieState.withinBudget] using ht.get d
      split
      · exact h.dieReset
      · split
        · exact h.setDie held
        · exact h.setDieState held
    next =>
      split
      next hpause => exact h.setDieState fun _ => hpause.2.2
      next => exact h
    all_goals exact h

theorem Keeps.settle (h : Keeps c s t) : Keeps c s (settle t) := h.settleDie.settleDie

theorem Keeps.endOperation (h : Keeps c s t) {d : DieId} : Keeps c s (endOperation d t) := by
  unfold Machine.endOperation
  split
  next run r abandon time hst =>
    exact h.setDieState fun ht => by simpa [hst, DieState.withinBudget] using ht.get d
  next => exact h.setDieState fun _ => trivial
  next => exact h.setDieState fun _ => trivial
  all_goals exact h

theorem Keeps.endProgram (h : Keeps c s t) {op : DieOp} {ok : Bool} :
    Keeps c s (endProgram op ok t).1 :=
  (h.setMedium fun ht => Memory.program_wf _ _ _ ht.medium).setDraws

theorem DieState.elapse_withinBudget {st : DieState} (h : st.withinBudget) (op : OpState)
    (dt : Nat) : (st.elapse op dt).withinBudget := by
  unfold DieState.elapse
  split
  case h_5 run ab t => split <;> cases run <;> exact h
  case h_1 | h_7 | h_8 => exact h
  all_goals split <;> exact h

theorem Entry.elapse_same (dt : Nat) (e : Entry) :
    (e.elapse dt).line = e.line ∧ (e.elapse dt).held = e.held ∧
      (e.elapse dt).openOrder = e.openOrder := by
  unfold Entry.elapse
  split <;> exact ⟨rfl, rfl, rfl⟩

theorem Entry.elapse_isOpen (dt : Nat) (e : Entry) : (e.elapse dt).isOpen = e.isOpen := by
  cases h : e.stage <;> simp [Entry.elapse, Entry.isOpen, h]

theorem Entry.elapse_sealOrder (dt : Nat) (e : Entry) : (e.elapse dt).sealOrder = e.sealOrder := by
  cases h : e.stage <;> simp [Entry.elapse, Entry.sealOrder, h]

theorem advance_eq (dt : Nat) (s : State) :
    advance dt s = ((((s.setWmb { s.wmb with entries := s.wmb.entries.map (Entry.elapse dt) }).setHost
      { s.host with port := s.host.port.mapHeld fun h => { h with stall := h.stall + dt } }).setDies
      ⟨s.dies.die0.elapse s.power.op dt, s.dies.die1.elapse s.power.op dt⟩).setNow (s.now + dt)) := rfl

theorem Keeps.elapse (h : Keeps c s t) {dt : Nat} : Keeps c s (elapse dt t) := by
  have advanced : Keeps c s (advance dt t) := by
    rw [advance_eq]
    refine .setNow (.setDies (.setHost (.setWmb h fun hw => hw.restage (Entry.elapse_same dt)
      (Entry.elapse_isOpen dt) (Entry.elapse_sealOrder dt)) (by exact id)) fun ht => ?_)
    exact ⟨DieState.elapse_withinBudget ht.1 _ _, DieState.elapse_withinBudget ht.2 _ _⟩
  exact advanced.andThen Writes.refl.countStall

end SharedOperations

end Sys2Proof.Machine
end

section
/-!
PROOFS. Each block's own operations are writes, or keep what `Keeps` says: the buffer, releases, the host port,
relocation, the link, the lanes, erases, the scan, the dies and the power monitor.
-/

namespace Sys2Proof.Machine

open Sys2Proof

section Operations

variable {c : Instr} {s t : State}

/-! ### The write-merge buffer and releases -/

theorem Writes.longDone (h : Writes c s t) : Writes c s (longDone t) := by
  unfold Machine.longDone
  split
  · exact h.setLink (by exact id) fun _ => by exact Counters.noneBelow_refl _
  · exact h

theorem Writes.clearBoundary (h : Writes c s t) : Writes c s (t.setWmb { t.wmb with boundary := none }) :=
  h.setWmb fun hw => hw.withBoundary (by simp)

theorem Writes.reportDrain (h : Writes c s t) : Writes c s (reportDrain t) := by
  unfold Machine.reportDrain
  dsimp only
  split
  · split
    · exact h.clearBoundary.longDone
    · exact h.clearBoundary
  · exact h

theorem Writes.startRelease (h : Writes c s t) {l : Sector} {b : Binding} :
    Writes c s (startRelease l b t) :=
  (h.setMapEntry fun _ => by rfl).setRelease.issue

theorem Writes.queueStaged (h : Writes c s t) {l : Sector} : Writes c s (queueStaged l t) := by
  unfold Machine.queueStaged
  split
  · exact h.requestReloc
  · exact h

theorem Writes.releaseEnds (h : Writes c s t) (hc : mayRebind c = true) {r : Release} :
    Writes c s (releaseEnds r t) :=
  Writes.queueStaged (.longDone (.setRelease (h.setMapEntry fun hn => by simp [hc] at hn)))

theorem Writes.releaseMarkEnds (h : Writes c s t) (hc : mayRebind c = true) {pass : Bool} :
    Writes c s (releaseMarkEnds pass t) := by
  unfold Machine.releaseMarkEnds
  split
  · split
    · exact h
    · split
      · exact h.joinEraseQueue.releaseEnds hc
      · exact h.record.setRelease.issue
  · exact h

theorem Writes.recordUnless (h : Writes c s t) {pass : Bool} {b : RecordBody} :
    Writes c s (if pass then t else Machine.record b t) := by
  split
  · exact h
  · exact h.record

theorem Writes.releaseRetireEnds (h : Writes c s t) (hc : mayRebind c = true) {pass : Bool} :
    Writes c s (releaseRetireEnds pass t) := by
  unfold Machine.releaseRetireEnds
  split
  · split
    · exact h.recordUnless.joinRetired.releaseEnds hc
    · exact h
  · exact h

theorem Writes.releaseTimeout (h : Writes c s t) (hc : mayRebind c = true) {op : DieOp} :
    Writes c s (releaseTimeout op t) := by
  unfold Machine.releaseTimeout
  split
  · exact h.releaseMarkEnds hc
  · exact h.releaseRetireEnds hc
  all_goals exact h

/-! ### The host port -/

theorem Writes.completeRead (h : Writes c s t) {cycle : HostCycle} {w : HostWord} :
    Writes c s (completeRead cycle w t) := h.setPort.countUp

theorem Writes.refuseWrite (h : Writes c s t) {cycle : HostCycle} : Writes c s (refuseWrite cycle t) :=
  h.setPort.countUp

theorem Writes.refuseDegraded (h : Writes c s t) {cycle : HostCycle} :
    Writes c s (refuseDegraded cycle t) := h.record.refuseWrite

theorem Writes.refuseHeldWrite (h : Writes c s t) : Writes c s (refuseHeldWrite t) := by
  unfold Machine.refuseHeldWrite
  split
  · exact h.refuseDegraded
  all_goals exact h

theorem Writes.takeOrHold (h : Writes c s t) {x : HeldCycle} {data : HostWord} :
    Writes c s (takeOrHold x data t) := by
  unfold Machine.takeOrHold
  split
  next ht => exact (h.presentWrite ht).setPort.countUp
  next => exact h.setPort

theorem Writes.writePastRegion (h : Writes c s t) {x : HeldCycle} {data : HostWord} :
    Writes c s (writePastRegion x data t) := by
  unfold Machine.writePastRegion
  split
  · exact h.refuseDegraded
  · split
    · exact h.takeOrHold
    · exact h.setPort

theorem Writes.arriveWrite (h : Writes c s t) {x : HeldCycle} {data : HostWord} :
    Writes c s (arriveWrite x data t) := by
  unfold Machine.arriveWrite
  split
  · split
    · exact h.record.refuseWrite
    · exact h.writePastRegion
  · exact h.writePastRegion

theorem Writes.readPastRegion (h : Writes c s t) {x : HeldCycle} : Writes c s (readPastRegion x t) := by
  unfold Machine.readPastRegion
  dsimp only
  split
  · split
    · exact h.completeRead
    · exact h.setPort.issue
  · exact h.completeRead

theorem Writes.arriveRead (h : Writes c s t) {x : HeldCycle} : Writes c s (arriveRead x t) := by
  unfold Machine.arriveRead
  split
  · split
    · exact h.record.completeRead
    · exact h.readPastRegion
  · exact h.readPastRegion

theorem Writes.handleArrival (h : Writes c s t) {x : HeldCycle} : Writes c s (handleArrival x t) := by
  unfold Machine.handleArrival
  split
  · split <;> exact h.setPort
  · split
    · exact h.setPort
    · exact h.completeRead
    · exact h.refuseWrite
    · exact h.arriveRead
    · exact h.arriveRead
    · exact h.arriveWrite
    · exact h.arriveWrite

theorem Writes.portReturns (h : Writes c s t) {next : Option HeldCycle} :
    Writes c s (portReturns next t) := by
  unfold Machine.portReturns
  split
  · exact h.setPort.handleArrival
  · exact h.setPort

theorem Writes.abandonCycle (h : Writes c s t) : Writes c s (abandonCycle t) := by
  unfold Machine.abandonCycle
  split
  case h_6 | h_7 => exact h
  all_goals exact h.setPort

theorem Writes.endCycle (h : Writes c s t) : Writes c s (endCycle t) := by
  unfold Machine.endCycle
  split
  · exact h.setPort
  all_goals exact h

theorem Writes.arrive (h : Writes c s t) {cycle : HostCycle} : Writes c s (arrive cycle t) := by
  unfold Machine.arrive
  dsimp only
  split
  · exact h.abandonCycle.endCycle.setPort
  · split
    · exact h.abandonCycle.endCycle.setPort
    all_goals exact h.abandonCycle.endCycle.handleArrival

theorem Writes.portReadResult (h : Writes c s t) {line : LineData} :
    Writes c s (portReadResult line t) := by
  unfold Machine.portReadResult
  split
  · exact h.completeRead
  · exact h.portReturns
  all_goals exact h

theorem Writes.portReadTimeout (h : Writes c s t) : Writes c s (portReadTimeout t) := by
  unfold Machine.portReadTimeout
  split
  · exact h.issue
  · exact h.portReturns
  all_goals exact h

theorem Writes.portEntersFailed (h : Writes c s t) : Writes c s (portEntersFailed t) := by
  unfold Machine.portEntersFailed
  split
  · exact h.completeRead
  · exact h.portReturns
  · exact h.refuseWrite
  · exact h.handleArrival
  all_goals exact h

theorem Writes.presentHeldWrite (h : Writes c s t) : Writes c s (presentHeldWrite t) := by
  unfold Machine.presentHeldWrite
  split
  · split
    · exact h.writePastRegion
    · exact h
  · exact h

/-! ### Relocation -/

theorem Writes.setEngine (h : Writes c s t) {e : Engine} : Writes c s (setEngine e t) := h.setReloc

theorem Writes.setFieldTarget (h : Writes c s t) {l : Sector} {p : Option Phys} :
    Writes c s (setFieldTarget l p t) := by
  unfold Machine.setFieldTarget
  dsimp only
  split <;> exact h.setMapEntry fun _ => by rfl

theorem Writes.requestDegraded (h : Writes c s t) {why : DegradedReason} {lost : Nat} :
    Writes c s (requestDegraded why lost t) := by
  unfold Machine.requestDegraded
  split
  next hd =>
    exact (h.setPower (by exact id) fun hg => by rw [hd] at hg; cases hg).record.refuseHeldWrite
  next hd => exact h.setPower (by exact id) fun _ => by rfl
  next => exact h

theorem Writes.abandon (h : Writes c s t) {j : Job} {why : Option DegradedReason} :
    Writes c s (abandon j why t) := by
  unfold Machine.abandon
  dsimp only
  refine Writes.setEngine ?_
  split
  · refine Writes.requestDegraded ?_
    split
    · exact h.discardWhere.record.setReloc.setMapEntry fun _ => by rfl
    · exact h.discardWhere.record.setMapEntry fun _ => by rfl
  · split
    · exact h.discardWhere.record.setReloc.setMapEntry fun _ => by rfl
    · exact h.discardWhere.record.setMapEntry fun _ => by rfl

theorem Writes.claimTarget (h : Writes c s t) {j : Job} {p : Phys} {g : Gen} :
    Writes c s (claimTarget j p g t) :=
  Writes.issue (.setReloc (.setFieldTarget (.moveTo (h.setLists (by rfl)))))

theorem Writes.chooseTarget (h : Writes c s t) {j : Job} : Writes c s (chooseTarget j t) := by
  unfold Machine.chooseTarget
  split
  · exact h.setEngine
  · split
    · exact h.abandon
    · split
      · exact h.claimTarget
      · split
        · exact h.abandon
        · exact h.setEngine

theorem Writes.relocationTakes (h : Writes c s t) : Writes c s (relocationTakes t) := by
  unfold Machine.relocationTakes
  split
  · exact h
  · exact (h.setReloc.setMapEntry fun _ => by rfl).chooseTarget

theorem Entry.folded_same (l : Sector) (e : Entry) :
    (e.folded l).line = e.line ∧ (e.folded l).held = e.held ∧
      (e.folded l).openOrder = e.openOrder := by
  unfold Entry.folded
  split
  · split <;> exact ⟨rfl, rfl, rfl⟩
  all_goals exact ⟨rfl, rfl, rfl⟩

theorem Entry.folded_isOpen (l : Sector) (e : Entry) : (e.folded l).isOpen = e.isOpen := by
  cases h : e.stage <;> by_cases hl : e.sector = l <;> simp [Entry.folded, Entry.isOpen, h, hl]

theorem Entry.folded_sealOrder (l : Sector) (e : Entry) :
    (e.folded l).sealOrder = e.sealOrder := by
  cases h : e.stage <;> by_cases hl : e.sector = l <;> simp [Entry.folded, Entry.sealOrder, h, hl]

theorem Writes.fold (h : Writes c s t) {l : Sector} : Writes c s (fold l t) :=
  h.setEntries_map (Entry.folded_same l) (Entry.folded_isOpen l) (Entry.folded_sealOrder l)

theorem Writes.issueSeal (h : Writes c s t) {j : Job} {p : Phys} {g : Gen} :
    Writes c s (issueSeal j p g t) := h.setEngine.issue

theorem Writes.issueCopy (h : Writes c s t) {j : Job} {p : Phys} {g : Gen} {pos : Pos}
    {line : LineData} : Writes c s (issueCopy j p g pos line t) := h.setEngine.issue

theorem Writes.copyFrom (h : Writes c s t) {j : Job} {p : Phys} {g : Gen} {pos : Nat} :
    Writes c s (copyFrom j p g pos t) := by
  unfold Machine.copyFrom
  split
  · split
    · exact h.setEngine.issue
    · split
      · exact h.issueCopy
      · exact h.issueSeal
  · exact h.issueSeal

theorem Writes.foldAndCopy (h : Writes c s t) {j : Job} {p : Phys} {g : Gen} :
    Writes c s (foldAndCopy j p g t) := h.fold.copyFrom

theorem Writes.targetFails (h : Writes c s t) {j : Job} {p : Phys} {g : Gen} {line : Option LineNo}
    {why : RetireReason} : Writes c s (targetFails j p g line why t) := h.record.setEngine.issue

theorem Writes.claimEnds (h : Writes c s t) {pass : Bool} : Writes c s (claimEnds pass t) := by
  unfold Machine.claimEnds
  split
  · split
    · split
      · exact h.copyFrom
      · split
        · exact h.setEngine
        · exact h.foldAndCopy
    · exact h.targetFails
  all_goals exact h

theorem Writes.copyLineReturns (h : Writes c s t) {medium : LineData} :
    Writes c s (copyLineReturns medium t) := by
  unfold Machine.copyLineReturns
  split
  · dsimp only
    split
    · exact h.copyFrom
    · exact h.issueCopy
  all_goals exact h

theorem Writes.copyProgramEnds (h : Writes c s t) {pass : Bool} :
    Writes c s (copyProgramEnds pass t) := by
  unfold Machine.copyProgramEnds
  split
  · split
    · exact h.copyFrom
    · exact h.targetFails
  all_goals exact h

theorem Writes.sourceLeaves (h : Writes c s t) {source : Option Phys} {suspect : Bool} :
    Writes c s (sourceLeaves source suspect t) := by
  unfold Machine.sourceLeaves
  split
  · split
    · exact h.joinRetired
    · exact h.joinEraseQueue
  · exact h

theorem Writes.switch (h : Writes c s t) (hc : mayRebind c = true) {j : Job} {p : Phys} {g : Gen} :
    Writes c s (switch j p g t) := by
  unfold Machine.switch
  dsimp only
  split
  · exact Writes.issue (.setEngine (.countUp (.freeWhere
      (h.moveTo.sourceLeaves.setMapEntry fun hn => by simp [hc] at hn))))
  · exact Writes.setEngine (.countUp (.freeWhere
      (h.moveTo.sourceLeaves.setMapEntry fun hn => by simp [hc] at hn)))

theorem Writes.sealEnds (h : Writes c s t) (hc : mayRebind c = true) {pass : Bool} :
    Writes c s (sealEnds pass t) := by
  unfold Machine.sealEnds
  split
  · split
    · exact h.switch hc
    · exact h.targetFails
  all_goals exact h

theorem Writes.sourceRetireEnds (h : Writes c s t) {pass : Bool} :
    Writes c s (sourceRetireEnds pass t) := by
  unfold Machine.sourceRetireEnds
  split
  · exact h.recordUnless.setEngine
  all_goals exact h

theorem Writes.targetRetireEnds (h : Writes c s t) {pass : Bool} :
    Writes c s (targetRetireEnds pass t) := by
  unfold Machine.targetRetireEnds
  split
  · dsimp only
    split
    · exact h.recordUnless.joinRetired.setFieldTarget.abandon
    · split
      · exact h.recordUnless.joinRetired.setFieldTarget.setEngine
      · exact h.recordUnless.joinRetired.setFieldTarget.chooseTarget
  all_goals exact h

theorem Writes.relocationTimeout (h : Writes c s t) (hc : mayRebind c = true) {op : DieOp} :
    Writes c s (relocationTimeout op t) := by
  unfold Machine.relocationTimeout
  split
  · exact h.issue
  · exact h.copyProgramEnds
  · exact h.claimEnds
  · exact h.sealEnds hc
  · exact h.sourceRetireEnds.targetRetireEnds
  all_goals exact h

theorem Writes.spareReported (h : Writes c s t) : Writes c s (spareReported t) := by
  unfold Machine.spareReported
  split
  · split
    · exact h.chooseTarget
    · exact h
  all_goals exact h

theorem Writes.relocationResumes (h : Writes c s t) : Writes c s (relocationResumes t) := by
  unfold Machine.relocationResumes
  split
  · exact h.foldAndCopy
  · split
    · exact h.chooseTarget
    · exact h
  all_goals exact h

/-! ### The link -/

theorem Writes.respond (h : Writes c s t) {code : ResponseCode} {command : Byte} {data : List Byte} :
    Writes c s (respond code command data t) := h.setLink (by exact id) fun _ => by exact Counters.noneBelow_refl _

theorem Writes.unlessRefused (h : Writes c s t) {command : Byte} {answer : State → State}
    (ha : Writes c s (answer t)) : Writes c s (unlessRefused command answer t) := by
  unfold Machine.unlessRefused
  split
  · exact h.respond
  · exact ha

theorem Writes.unlessStarting (h : Writes c s t) {command : Byte} {answer : State → State}
    (ha : Writes c s (answer t)) : Writes c s (unlessStarting command answer t) := by
  unfold Machine.unlessStarting
  split
  · exact h.respond
  · exact ha

theorem Writes.unlessBusy (h : Writes c s t) {command : Byte} {answer : State → State}
    (ha : Writes c s (answer t)) : Writes c s (unlessBusy command answer t) := by
  unfold Machine.unlessBusy
  refine h.unlessRefused ?_
  split
  · exact h.respond
  · exact ha

theorem Writes.answerLong (h : Writes c s t) {command : LongCommand} {code : Byte} {done : Bool} :
    Writes c s (answerLong command code done t) :=
  Writes.respond (h.setLink (by exact id) fun _ => by exact Counters.noneBelow_refl _)

theorem Writes.acceptFlush (h : Writes c s t) : Writes c s (acceptFlush t) := by
  have sealed : Writes c s (Machine.sealAll (t.setWmb { t.wmb with boundary := some t.wmb.openCounter })) :=
    Writes.sealAll (h.setWmb fun hw => hw.withBoundary fun x hx => by cases hx; exact Nat.le_refl _)
  unfold Machine.acceptFlush
  dsimp only
  split
  · exact sealed.clearBoundary.answerLong
  · exact sealed.answerLong

theorem Writes.dequeueReloc (h : Writes c s t) {l : Sector} : Writes c s (dequeueReloc l t) := by
  unfold Machine.dequeueReloc
  split
  · exact h.setReloc.setMapEntry fun _ => by rfl
  all_goals exact h

theorem Writes.discardStaged (h : Writes c s t) {l : Sector} : Writes c s (discardStaged l t) := by
  unfold Machine.discardStaged
  dsimp only
  split
  · exact h.discardWhere
  · exact h.discardWhere.record

/-- RELEASE SECTOR acts by writes, and the schedulers' choice after them for a BACKED sector (R171). -/
theorem acceptRelease_writes (c : Instr) (l : Sector) (s : State) :
    ∃ u, Writes c s u ∧ (acceptRelease l s = u ∨ acceptRelease l s = Machine.settle u) := by
  have r := Writes.refl (c := c) (s := s)
  unfold Machine.acceptRelease
  split
  · exact ⟨_, r.respond, .inl rfl⟩
  · dsimp only
    split
    · exact ⟨_, r.discardStaged.dequeueReloc.answerLong, .inl rfl⟩
    · exact ⟨_, r.discardStaged.dequeueReloc.answerLong.startRelease, .inr rfl⟩

theorem answerRelease_writes (c : Instr) (n : BitVec 16) (s : State) :
    ∃ u, Writes c s u ∧ (answerRelease n s = u ∨ answerRelease n s = Machine.settle u) := by
  unfold Machine.answerRelease
  split
  · exact acceptRelease_writes c _ s
  · exact ⟨_, Writes.refl.respond, .inl rfl⟩

theorem Writes.answerReadRegion (h : Writes c s t) {index : Byte} :
    Writes c s (answerReadRegion index t) := by
  unfold Machine.answerReadRegion
  split <;> exact h.respond

theorem givenRegion_ordered {first last : BitVec 16} {mode enabled : Byte} {r : Region}
    (h : givenRegion first last mode enabled = some r) : r.first ≤ r.last := by
  unfold givenRegion at h
  split at h
  · split_ifs at h with pages ordered enabledByte
    obtain rfl := Option.some.inj h
    exact ordered
  · cases h

theorem Writes.answerWriteRegion (h : Writes c s t) {index : Byte} {first last : BitVec 16}
    {mode enabled : Byte} : Writes c s (answerWriteRegion index first last mode enabled t) := by
  unfold Machine.answerWriteRegion
  split
  next hr =>
    split
    · exact h.respond
    next hfrozen =>
      exact (h.setRegion (fun _ => givenRegion_ordered hr) fun hf => absurd hf hfrozen).respond
  next => exact h.respond

theorem mem_of_find {α : Type} {t : Table α} {k : Nat} {v : α} (h : Table.find t k = some v) :
    (k, v) ∈ t := by
  induction t with
  | nil => cases h
  | cons x rest ih =>
    rw [Table.find] at h
    split at h
    next hk =>
      obtain rfl := Option.some.inj h
      subst hk
      exact List.mem_cons_self
    next => exact List.mem_cons_of_mem _ (ih h)

theorem RegionsOrdered.at {s : State} (h : RegionsOrdered s) (i : Fin 16) :
    (regionAt s i).first ≤ (regionAt s i).last := by
  unfold regionAt Table.read
  cases hf : Table.find s.regions i.val with
  | none => exact Nat.le_refl _
  | some r => exact h _ (mem_of_find hf)

theorem Writes.answerFreezeRegion (h : Writes c s t) {index : Byte} :
    Writes c s (answerFreezeRegion index t) := by
  unfold Machine.answerFreezeRegion
  split
  next i _ =>
    refine (h.setRegion (fun ht => by exact ht.at i) fun hf => ?_).respond
    rw [← hf]
  next => exact h.respond

theorem Writes.answerReadFault (h : Writes c s t) : Writes c s (answerReadFault t) := by
  unfold Machine.answerReadFault
  split
  next r rest hf =>
    exact (h.setLink (fun hl => by rw [hf] at hl; exact Nat.le_of_succ_le hl)
      fun _ => by exact Counters.noneBelow_refl _).respond
  next => exact (h.setLink (by exact id) fun _ => by exact Counters.noneBelow_refl _).respond

theorem Writes.answerMapQuery (h : Writes c s t) {n : BitVec 16} : Writes c s (answerMapQuery n t) := by
  unfold Machine.answerMapQuery
  split <;> exact h.respond

theorem Writes.answerSectorQuery (h : Writes c s t) {n : BitVec 16} :
    Writes c s (answerSectorQuery n t) := by
  unfold Machine.answerSectorQuery
  split <;> exact h.respond

theorem releaseSector_writes (c : Instr) (n : BitVec 16) (s : State) :
    ∃ u, Writes c s u ∧ (Machine.unlessBusy 0x32 (answerRelease n) s = u ∨
      Machine.unlessBusy 0x32 (answerRelease n) s = Machine.settle u) := by
  unfold Machine.unlessBusy Machine.unlessRefused
  split
  · exact ⟨_, Writes.refl.respond, .inl rfl⟩
  · dsimp only
    split
    · exact ⟨_, Writes.refl.respond, .inl rfl⟩
    · exact answerRelease_writes c n s

theorem Writes.answerSetTiming (h : Writes c s t) {delay threshold : BitVec 16} :
    Writes c s (answerSetTiming delay threshold t) := by
  unfold Machine.answerSetTiming
  split
  next => exact h.respond
  next hne =>
    exact Writes.respond (.countStall (.sealWhere (.setHost (h.setWmb fun hw => by exact { hw with })
      fun _ => by exact hne)))

theorem Writes.answerEventEnable (h : Writes c s t) {enables : Byte} :
    Writes c s (answerEventEnable enables t) := by
  unfold Machine.answerEventEnable
  split
  · exact (h.setLink (by exact id) fun _ => by exact Counters.noneBelow_refl _).respond
  · exact h.respond

/-! ### The commit lanes -/

theorem Writes.setLane (h : Writes c s t) {d : DieId} {l : Lane} : Writes c s (setLane d l t) :=
  h.setLanes

theorem Entry.takenBy_same (d : DieId) (e : Entry) :
    (e.takenBy d).line = e.line ∧ (e.takenBy d).held = e.held ∧
      (e.takenBy d).openOrder = e.openOrder := by
  unfold Entry.takenBy
  split <;> exact ⟨rfl, rfl, rfl⟩

theorem Entry.takenBy_isOpen (d : DieId) (e : Entry) : (e.takenBy d).isOpen = e.isOpen := by
  cases h : e.stage <;> simp [Entry.takenBy, Entry.isOpen, h]

theorem Entry.takenBy_sealOrder (d : DieId) (e : Entry) :
    (e.takenBy d).sealOrder = e.sealOrder := by
  cases h : e.stage <;> simp [Entry.takenBy, Entry.sealOrder, h]

theorem Entry.returned_same (e : Entry) :
    e.returned.line = e.line ∧ e.returned.held = e.held ∧ e.returned.openOrder = e.openOrder := by
  unfold Entry.returned
  split <;> exact ⟨rfl, rfl, rfl⟩

theorem Entry.returned_isOpen (e : Entry) : e.returned.isOpen = e.isOpen := by
  cases h : e.stage <;> simp [Entry.returned, Entry.isOpen, h]

theorem Entry.returned_sealOrder (e : Entry) : e.returned.sealOrder = e.sealOrder := by
  cases h : e.stage <;> simp [Entry.returned, Entry.sealOrder, h]

theorem Writes.updateEntry (h : Writes c s t) {id : Nat} {f : Entry → Entry}
    (same : ∀ e, (f e).line = e.line ∧ (f e).held = e.held ∧ (f e).openOrder = e.openOrder)
    (opens : ∀ e, (f e).isOpen = e.isOpen) (orders : ∀ e, (f e).sealOrder = e.sealOrder) :
    Writes c s (updateEntry id f t) := by
  refine h.setEntries_map (fun e => ?_) (fun e => ?_) fun e => ?_ <;> split
  · exact same e
  · exact ⟨rfl, rfl, rfl⟩
  · exact opens e
  · rfl
  · exact orders e
  · rfl

theorem Writes.takeEntry (h : Writes c s t) {id : Nat} {d : DieId} :
    Writes c s (Machine.updateEntry id (Entry.takenBy d) t) :=
  h.updateEntry (Entry.takenBy_same d) (Entry.takenBy_isOpen d) (Entry.takenBy_sealOrder d)

theorem Writes.returnEntry (h : Writes c s t) {id : Nat} :
    Writes c s (Machine.updateEntry id Entry.returned t) :=
  h.updateEntry Entry.returned_same Entry.returned_isOpen Entry.returned_sealOrder

theorem Writes.laneTakes (h : Writes c s t) {d : DieId} : Writes c s (laneTakes d t) := by
  unfold Machine.laneTakes
  split
  · exact h
  · split
    · exact h
    · exact h.takeEntry.setLane.issue

theorem Writes.laneCommitted (h : Writes c s t) {d : DieId} {id : Nat} :
    Writes c s (laneCommitted d id t) := h.freeWhere.countUp.setLane

theorem Writes.laneLoses (h : Writes c s t) {d : DieId} {e : Entry} {region : Fin 16} :
    Writes c s (laneLoses d e region t) := h.discardWhere.record.setLane

theorem Writes.laneHandsOff (h : Writes c s t) {d : DieId} {e : Entry} :
    Writes c s (laneHandsOff d e t) := h.returnEntry.requestReloc.setLane

theorem Writes.laneTests (h : Writes c s t) {d : DieId} {medium : LineData} :
    Writes c s (laneTests d medium t) := by
  unfold Machine.laneTests
  split
  · split
    · exact h
    · dsimp only
      split
      · split
        · exact h.laneCommitted
        · exact h.setLane.issue
      · split
        · split
          · exact h.laneLoses
          · exact h.laneHandsOff
        · exact h.laneHandsOff
  all_goals exact h

theorem Writes.laneReadTimeout (h : Writes c s t) {d : DieId} : Writes c s (laneReadTimeout d t) := by
  unfold Machine.laneReadTimeout
  split
  · exact h.returnEntry.setLane
  all_goals exact h

theorem Writes.laneProgramFails (h : Writes c s t) {d : DieId} : Writes c s (laneProgramFails d t) := by
  unfold Machine.laneProgramFails
  split
  · split
    · exact h
    · dsimp only
      exact (h.returnEntry.setMapEntry fun _ => by rfl).requestReloc.record.setLane
  all_goals exact h

theorem Writes.laneProgrammed (h : Writes c s t) {d : DieId} {pass : Bool} :
    Writes c s (laneProgrammed d pass t) := by
  unfold Machine.laneProgrammed
  split
  · split
    · exact h.laneCommitted
    · exact h.laneProgramFails
  all_goals exact h

/-! ### Erases -/

theorem Writes.setSlot (h : Writes c s t) {d : DieId} {x : Slot} : Writes c s (setSlot d x t) :=
  h.setErase

theorem Writes.startErase (h : Writes c s t) {d : DieId} {r : EraseRecord} :
    Writes c s (startErase d r t) := Writes.issue (.setSlot (.moveTo (h.setLists (by rfl))))

theorem Writes.slotRetires (h : Writes c s t) {d : DieId} {i : SlotItems} {why : RetireReason} :
    Writes c s (slotRetires d i why t) := h.setSlot.issue

theorem Writes.erasePasses (h : Writes c s t) {d : DieId} {i : SlotItems} :
    Writes c s (erasePasses d i t) := h.countUp.setErase.issue.setSlot

theorem Writes.eraseFails (h : Writes c s t) {d : DieId} {i : SlotItems} :
    Writes c s (eraseFails d i t) := h.record.slotRetires

theorem Writes.clearDegraded (h : Writes c s t) : Writes c s (clearDegraded t) := by
  unfold Machine.clearDegraded
  split
  next hd => exact h.setPower id fun hg => by simp [hd.1] at hg
  next => exact h

theorem Writes.countEnds (h : Writes c s t) {d : DieId} {pass : Bool} :
    Writes c s (countEnds d pass t) := by
  unfold Machine.countEnds
  split
  · split
    · exact h.joinPool.setSlot.clearDegraded
    · exact h.record.slotRetires
  all_goals exact h

theorem Writes.slotRetireEnds (h : Writes c s t) {d : DieId} {pass : Bool} :
    Writes c s (slotRetireEnds d pass t) := by
  unfold Machine.slotRetireEnds
  split
  · exact h.recordUnless.setErase.joinRetired.setSlot
  all_goals exact h

theorem Writes.slotTimeout (h : Writes c s t) {d : DieId} {op : DieOp} :
    Writes c s (slotTimeout d op t) := by
  unfold Machine.slotTimeout
  split
  · split
    · exact h.eraseFails
    all_goals exact h
  · exact h.countEnds
  · exact h.slotRetireEnds
  all_goals exact h

theorem Writes.slotRejoins (h : Writes c s t) {d : DieId} {i : SlotItems} :
    Writes c s (slotRejoins d i t) := h.joinEraseQueue.setSlot

theorem Writes.abandonReported (h : Writes c s t) {d : DieId} : Writes c s (abandonReported d t) := by
  unfold Machine.abandonReported
  split
  · exact h.slotRejoins
  all_goals exact h

theorem Writes.pauseTimeoutReported (h : Writes c s t) {d : DieId} :
    Writes c s (pauseTimeoutReported d t) := by
  unfold Machine.pauseTimeoutReported
  split
  · split
    · exact h.slotRetires
    · exact h.setErase.slotRejoins
  all_goals exact h

theorem Keeps.abandonErase (h : Keeps c s t) {d : DieId} : Keeps c s (abandonErase d t) := by
  unfold Machine.abandonErase
  split
  case h_1 | h_2 => exact h.dieReset
  case h_3 run _ _ hst =>
    refine h.setDieState fun ht => ?_
    have held := ht.get d
    rw [hst] at held
    cases run <;> exact held
  case h_4 hst =>
    refine h.setDieState fun ht => ?_
    have held := ht.get d
    rw [hst] at held
    exact held
  all_goals exact h

theorem Keeps.slotPowersDown (h : Keeps c s t) {d : DieId} : Keeps c s (slotPowersDown d t) := by
  unfold Machine.slotPowersDown
  split
  · split
    · exact (h.setDie fun ht => by exact ht.get d).andThen Writes.refl.slotRejoins
    · exact h.abandonErase
  all_goals exact h

theorem Keeps.eraseEnded (h : Keeps c s t) {d : DieId} : Keeps c s (eraseEnded d t) := by
  unfold Machine.eraseEnded
  split
  · exact h.setDieState fun _ => trivial
  · exact h.setDieState fun _ => trivial
  all_goals exact h

/-! ### The scan -/

theorem Writes.scanReads (h : Writes c s t) {d : DieId} {p : Phys} : Writes c s (scanReads d p t) :=
  (h.setScan (fun ht => by exact ht.classes) fun ht => by exact ht.candidates).issue

theorem Writes.startScan (h : Writes c s t) {d : DieId} : Writes c s (startScan d t) := h.scanReads

/-- The scanner's tables keep their keys rising at a classification (R157). -/
def Scanner.SortedTables (sc : Scanner) : Prop :=
  Table.Sorted sc.classes ∧ Table.Sorted sc.candidates

theorem Scanner.SortedTables.classify {sc : Scanner} (h : sc.SortedTables) (p : Phys)
    (k : ClassKind) (n : EraseCount) : (sc.classify p k n).SortedTables :=
  ⟨Table.put_sorted _ _ h.1, h.2⟩

theorem Scanner.SortedTables.put {sc : Scanner} (h : sc.SortedTables) (l : Sector) (x : Candidate) :
    Scanner.SortedTables { sc with candidates := Table.put sc.candidates l.val x } :=
  ⟨h.1, Table.put_sorted _ _ h.2⟩

theorem Scanner.SortedTables.compare {sc : Scanner} (h : sc.SortedTables) (l : Sector)
    (x : Candidate) : (sc.compare l x).SortedTables := by
  unfold Scanner.compare
  split
  · exact h.put l x
  · split
    · exact (h.put l x).classify _ _ _
    · exact h.classify _ _ _

theorem Scanner.SortedTables.judge {sc : Scanner} (h : sc.SortedTables) (p : Phys)
    (tag : List Byte) : (sc.judge p tag).SortedTables := by
  have classed := h.classify p (classifyTag tag).kind (tagCount tag)
  unfold Scanner.judge
  dsimp only
  split
  next => exact classed.compare _ _
  next => exact classed

theorem Writes.scanTag (h : Writes c s t) {d : DieId} {p : Phys} {tag : List Byte} :
    Writes c s (scanTag d p tag t) := by
  have recorded : Writes c s (if (classifyTag tag).garbled then Machine.record (.garbledTag p) t else t) := by
    split
    · exact h.record
    · exact h
  unfold Machine.scanTag
  dsimp only
  generalize (if (classifyTag tag).garbled then Machine.record (.garbledTag p) t else t) = u at recorded
  have sorted (hu : TablesCanonical u) : (u.scan.judge p tag).SortedTables :=
    Scanner.SortedTables.judge ⟨hu.classes, hu.candidates⟩ p tag
  have judged : Writes c s (u.setScan (u.scan.judge p tag)) :=
    recorded.setScan (fun hu => (sorted hu).1) fun hu => (sorted hu).2
  split
  · exact judged.scanReads
  · exact judged.setScan (fun hu => by exact hu.classes) fun hu => by exact hu.candidates

theorem Writes.handleHeldCycle (h : Writes c s t) : Writes c s (handleHeldCycle t) := by
  unfold Machine.handleHeldCycle
  split
  · exact h.handleArrival
  all_goals exact h

theorem scannedMap_canonical {t : Table Candidate} (h : Table.Sorted t) :
    Table.Canonical MapEntry.unbacked (scannedMap t) := by
  refine ⟨?_, fun x hx => ?_⟩
  · simpa [Table.Sorted, scannedMap, Function.comp_def] using h
  · obtain ⟨y, -, rfl⟩ := List.mem_map.1 hx
    simp [MapEntry.unbacked]

theorem scannedRecs_sorted {t : Table Classified} (h : Table.Sorted t) :
    Table.Sorted (scannedRecs t) := by
  simpa [Table.Sorted, scannedRecs, Function.comp_def] using h

theorem Writes.endScan (h : Writes .scanEnd s t) : Writes .scanEnd s (endScan t) := by
  have written : Writes .scanEnd s (((t.setMap (scannedMap t.scan.candidates)).setAcct
      (scannedAcct t.scan.classes)).setReloc
        { t.reloc with generation := some (scannedGeneration t.scan.highest) }) := by
    refine Writes.setReloc (.setAcct (h.setMap (fun ht => scannedMap_canonical ht.candidates)
      fun hn => by cases hn) (fun ht => scannedRecs_sorted ht.classes) fun hn => absurd rfl hn)
  unfold Machine.endScan
  dsimp only
  refine Writes.handleHeldCycle ?_
  have entered (op : OpState) (hop : op ≠ .starting) : Writes .scanEnd s
      (((((t.setMap (scannedMap t.scan.candidates)).setAcct
      (scannedAcct t.scan.classes)).setReloc
        { t.reloc with generation := some (scannedGeneration t.scan.highest) }).setScan
          Scanner.atReset).setPower { t.power with op := op }) :=
    (written.setScan (fun _ => List.Pairwise.nil) fun _ => List.Pairwise.nil).setPower
      (fun hs => absurd hs hop) id
  split
  · exact (entered .powerdown OpState.noConfusion).sealAll
  · exact entered .running OpState.noConfusion

/-! ### The dies -/

theorem Keeps.pauseAnswered (h : Keeps c s t) {d : DieId} {held : Bool} :
    Keeps c s (pauseAnswered d held t) := by
  unfold Machine.pauseAnswered
  split
  next run abandon time hst =>
    refine (h.setDieState fun ht => ?_).andThen Writes.refl.countUp
    have taken := ht.get d
    rw [hst] at taken
    exact taken
  next => exact h.setDieState fun _ => trivial
  next => exact h

theorem Keeps.operationTimesOut (h : Keeps c s t) {d : DieId} :
    Keeps c s (operationTimesOut d t) := by
  unfold Machine.operationTimesOut
  split
  case h_1 | h_2 | h_3 | h_4 => exact h.elapse.dieReset
  all_goals exact h

theorem Keeps.pauseTimesOut (h : Keeps c s t) {d : DieId} : Keeps c s (pauseTimesOut d t) := by
  unfold Machine.pauseTimesOut
  split
  · exact (h.elapse.andThen Writes.refl.record).dieReset
  all_goals exact h

theorem Writes.enterFailed (h : Writes c s t) : Writes c s (enterFailed t) := by
  unfold Machine.enterFailed
  split
  · exact h
  · exact (h.setPower (fun hs => OpState.noConfusion hs) (by exact id)).portEntersFailed

theorem Keeps.dieResetTimesOut (h : Keeps c s t) {d : DieId} : Keeps c s (dieResetTimesOut d t) := by
  unfold Machine.dieResetTimesOut
  split
  · split
    · exact h
    · exact ((h.elapse.andThen Writes.refl.record).setDie fun ht => by exact ht.get d).andThen
        Writes.refl.enterFailed
  all_goals exact h

theorem Keeps.readyDisregarded (h : Keeps c s t) {d : DieId} : Keeps c s (readyDisregarded d t) := by
  unfold Machine.readyDisregarded
  split
  · exact h.setDieState fun _ => trivial
  all_goals exact h

theorem Writes.scanIfReady (h : Writes c s t) {d : DieId} : Writes c s (scanIfReady d t) := by
  unfold Machine.scanIfReady
  split
  · exact h.startScan
  · exact h

theorem Writes.deliverTimeout (h : Writes c s t) (hc : mayRebind c = true) {d : DieId}
    {who : Requester} {op : DieOp} : Writes c s (deliverTimeout d who op t) := by
  unfold Machine.deliverTimeout
  split
  · exact h.portReadTimeout
  · split
    · exact h.laneReadTimeout
    · exact h.laneProgramFails
  · exact h.relocationTimeout hc
  · exact h.slotTimeout
  · exact h.releaseTimeout hc
  · exact h.issue

theorem Writes.readyBrings (h : Writes c s t) {d : DieId} {cause : ResetCause}
    (hc : cause.isTimeout = true → mayRebind c = true) : Writes c s (readyBrings d cause t) := by
  unfold Machine.readyBrings
  split
  · exact h.scanIfReady
  · dsimp only
    split
    · exact (h.deliverTimeout (hc rfl)).abandonReported
    · exact h.deliverTimeout (hc rfl)
  · exact h.pauseTimeoutReported
  · exact h.abandonReported

theorem Keeps.dieReady (h : Keeps c s t) {d : DieId} {p : ResetCause → Bool}
    (hc : ∀ cause, p cause = true → cause.isTimeout = true → mayRebind c = true) :
    Keeps c s (dieReady d p t) := by
  unfold Machine.dieReady
  split
  · split
    next hp =>
      split
      · exact h.readyDisregarded
      · exact ((h.setDieState fun _ => by trivial).andThen
          (Writes.refl.readyBrings (hc _ (Bool.and_eq_true_iff.1 hp).1))).settle
    next => exact h
  all_goals exact h

/-! ### The power monitor -/

theorem Writes.releaseRst (h : Writes c s t) : Writes c s (releaseRst t) := by
  have released : Writes c s (t.setPower { t.power with rst := false }) := h.setPower (by exact id) (by exact id)
  unfold Machine.releaseRst
  dsimp only
  refine Writes.scanIfReady (.scanIfReady ?_)
  split
  · exact released.setPort.handleArrival
  all_goals exact released

theorem Keeps.enterPowerdown (h : Keeps c s t) : Keeps c s (enterPowerdown t) :=
  (h.andThen (Writes.setPower .refl (fun hs => OpState.noConfusion hs)
    (by exact id)).sealAll).slotPowersDown.slotPowersDown

theorem Writes.returnToRunning (h : Writes c s t) : Writes c s (returnToRunning t) :=
  (h.setPower (fun hs => OpState.noConfusion hs) (by exact id)).presentHeldWrite.relocationResumes

end Operations

end Sys2Proof.Machine
end

section
/-!
PROOFS. Every command but a reset keeps what `Keeps` says, and so does a step that is no reset; the two
resets keep the invariants of their own. From both: the step invariants of the stored tables, the
write-merge buffer and the bounds, and what no command but the named ones may change.
-/

namespace Sys2Proof.Machine

open Sys2Proof

/-- A command but a reset keeps what `Keeps` says, a frame that stands as its command does. -/
theorem exec_keeps_unframed {c : Instr} {s t : State} (hc : isReset c = false)
    (hf : ∀ bytes, c ≠ .badCommandFrame bytes) (h : exec c s = .next t) : Keeps c s t := by
  have r := Keeps.refl c s
  have w {u : State} := Writes.refl (c := c) (s := u)
  cases c
  case por | rstAsserted => cases hc
  case badCommandFrame bytes => exact absurd rfl (hf bytes)
  all_goals injection h with h; subst h
  case rstReleased => split; exacts [(r.andThen w.releaseRst).settle, r]
  case pfailAsserted =>
    split
    · exact (r.setPower (by exact id) (by exact id)).enterPowerdown.settle
    · exact r.setPower (by exact id) (by exact id)
  case pfailReleased =>
    split
    · exact ((r.setPower (by exact id) (by exact id)).andThen w.returnToRunning).settle
    · exact r.setPower (by exact id) (by exact id)
  case flushFallingEdge => exact w.sealAll.keeps
  case hostRead => exact (r.andThen w.arrive).settle
  case hostWrite => exact w.arrive.keeps
  case hostCycleAbandoned => exact w.abandonCycle.keeps
  case hostCycleEnd => exact w.endCycle.keeps
  case commitDelayExpiry => split; exacts [r.elapse.andThen w.sealEntry, r]
  case longStall =>
    split
    · split; exacts [r, r.elapse]
    · exact r
  case heldWritePresented => exact w.presentHeldWrite.keeps
  case flushDrain => exact w.reportDrain.keeps
  case laneTake => split; exacts [(r.andThen w.laneTakes).settle, r]
  case laneReadLineResult => split; exacts [(r.endOperation.andThen w.laneTests).settle, r]
  case laneProgramLineResult => split; exacts [(r.endOperation.endProgram.andThen w.laneProgrammed).settle, r]
  case relocationTake => split; exacts [(r.andThen w.relocationTakes).settle, r]
  case spareReport => split; exacts [(r.andThen w.spareReported).settle, r]
  case claimResult =>
    split
    · split; exacts [(r.endOperation.endProgram.andThen w.claimEnds).settle, r]
    · exact r
  case copyReadLineResult =>
    split
    · split
      · split; exacts [(r.endOperation.andThen w.copyLineReturns).settle, r]
      · exact r
    · exact r
  case copyProgramLineResult =>
    split
    · split; exacts [(r.endOperation.endProgram.andThen w.copyProgramEnds).settle, r]
    · exact r
  case sealResult =>
    split
    · split; exacts [(r.endOperation.endProgram.andThen (w.sealEnds rfl)).settle, r]
    · exact r
  case sourceRetireResult =>
    split
    · split; exacts [(r.endOperation.endProgram.andThen w.sourceRetireEnds).settle, r]
    · exact r
  case targetRetireResult =>
    split
    · split; exacts [(r.endOperation.endProgram.andThen w.targetRetireEnds).settle, r]
    · exact r
  case eraseStart =>
    split
    · split; exacts [(r.andThen w.startErase).settle, r]
    · exact r
  case eraseSectorResult =>
    split
    · split
      · dsimp only
        split
        · exact ((r.eraseEnded.setMedium fun ht =>
            Memory.eraseSector_wf _ ht.medium).andThen w.erasePasses).settle
        · exact ((r.eraseEnded.setMedium fun ht =>
            Memory.cutErase_wf _ _ ht.medium).setDraws.andThen w.eraseFails).settle
      · exact r
    · exact r
  case countResult => split; exacts [(r.endOperation.endProgram.andThen w.countEnds).settle, r]
  case eraseRetireResult => split; exacts [(r.endOperation.endProgram.andThen w.slotRetireEnds).settle, r]
  case releaseProgramResult =>
    split
    · split; exacts [(r.endOperation.endProgram.andThen (w.releaseMarkEnds rfl)).settle, r]
    · exact r
  case releaseRetireResult =>
    split
    · split; exacts [(r.endOperation.endProgram.andThen (w.releaseRetireEnds rfl)).settle, r]
    · exact r
  case hostReadLineResult =>
    split
    · split; exacts [(r.endOperation.andThen w.portReadResult).settle, r]
    · exact r
  case readTagResult => split; exacts [(r.endOperation.andThen w.scanTag).settle, r]
  case pauseAnswer => split; exacts [r, r.pauseAnswered.settle]
  case progressIntervalReached =>
    split
    · exact r
    · split; exacts [r.elapse.settle, r]
  case operationTimeout => split; exacts [r, r.operationTimesOut]
  case pauseTimeout => split; exacts [r, r.pauseTimesOut]
  case dieResetTimeout => exact r.dieResetTimesOut
  case dieReadyAfterReset => exact r.dieReady fun cause hp ht => by cases cause <;> cases hp; cases ht
  case dieReadyAfterTimeout => exact r.dieReady fun _ _ _ => rfl
  case dieReadyAfterPauseTimeout =>
    exact r.dieReady fun cause hp ht => by cases cause <;> cases hp; cases ht
  case dieReadyAfterAbandon =>
    exact r.dieReady fun cause hp ht => by cases cause <;> cases hp; cases ht
  case scanEnd => split; exacts [(r.andThen w.endScan).settle, r]
  case status => exact w.respond.keeps
  case flush => exact (w.unlessBusy w.acceptFlush).keeps
  case readRegion => exact (w.unlessRefused w.answerReadRegion).keeps
  case writeRegion => exact (w.unlessRefused w.answerWriteRegion).keeps
  case freezeRegion => exact (w.unlessRefused w.answerFreezeRegion).keeps
  case readCounters =>
    refine Writes.keeps (w.unlessStarting ?_)
    exact w.respond
  case clearCounters =>
    exact (w.unlessRefused (.respond (w.setLink (by exact id) fun hn => absurd (.inl rfl) hn))).keeps
  case readFault => exact (w.unlessStarting w.answerReadFault).keeps
  case mapQuery => exact (w.unlessRefused w.answerMapQuery).keeps
  case sectorQuery => exact (w.unlessRefused w.answerSectorQuery).keeps
  case releaseSector n =>
    obtain ⟨u, hu, h | h⟩ := releaseSector_writes (.releaseSector n) n s <;> rw [h]
    · exact hu.keeps
    · exact hu.keeps.settle
  case setTiming => exact (w.unlessRefused w.answerSetTiming).keeps
  case eventEnable => exact (w.unlessRefused w.answerEventEnable).keeps

/-- The bytes of a write transaction are answered, change nothing, or run the command they spell. -/
theorem badFrame_cases {bytes : List Byte} {s t : State}
    (h : exec (.badCommandFrame bytes) s = .next t) :
    (∃ code command, t = respond code command [] s) ∨ t = s ∨
      ∃ c, judgeFrame bytes = .command c ∧ (commandParts c).isSome = true ∧ exec c s = .next t := by
  change execBadCommandFrame bytes s = .next t at h
  unfold execBadCommandFrame at h
  split at h
  next => injection h with h; exact .inl ⟨_, _, h.symm⟩
  next => injection h with h; exact .inl ⟨_, _, h.symm⟩
  next c hj =>
    rcases runFrame_cases c s with hstay | ⟨hframe, hrun⟩
    · rw [hstay] at h; injection h with h; exact .inr (.inl h.symm)
    · exact .inr (.inr ⟨c, hj, hframe, hrun ▸ h⟩)

theorem exec_keeps {c : Instr} {s t : State} (hc : isReset c = false)
    (h : exec c s = .next t) : Keeps c s t := by
  by_cases hf : ∃ bytes, c = .badCommandFrame bytes
  · obtain ⟨bytes, rfl⟩ := hf
    rcases badFrame_cases h with ⟨code, command, rfl⟩ | rfl | ⟨c, hj, hframe, hrun⟩
    · exact Writes.refl.respond.keeps
    · exact Keeps.refl _ _
    · obtain ⟨-, -, hreset, hbad⟩ := commandParts_plain hframe
      exact (exec_keeps_unframed hreset hbad hrun).of_frame hj hframe
  · exact exec_keeps_unframed hc (fun bytes hb => hf ⟨bytes, hb⟩) h

/-! ### Resets -/

theorem cutBoth_wf {s : State} (h : s.medium.wf) : (cutBoth s).medium.wf :=
  cutInProgress_wf _ (cutInProgress_wf _ h)

theorem cutBoth_shape (s : State) : ∃ m n, cutBoth s = (s.setMedium m).setDraws n := by
  obtain ⟨m, n, h⟩ := cutInProgress_shape .die0 s
  obtain ⟨m', n', h'⟩ := cutInProgress_shape .die1 (cutInProgress .die0 s)
  exact ⟨m', n', by rw [cutBoth, h', h]; rfl⟩

theorem porValues_tables {s : State} (h : s.medium.wf) : TablesCanonical (porValues s) where
  medium := h
  map := ⟨List.Pairwise.nil, fun _ hc => nomatch hc⟩
  regions := ⟨List.Pairwise.nil, fun _ hc => nomatch hc⟩
  recs := List.Pairwise.nil
  classes := List.Pairwise.nil
  candidates := List.Pairwise.nil

theorem Region.afterRst_pages (r : Region) : r.afterRst.first = r.first ∧ r.afterRst.last = r.last := by
  unfold Region.afterRst
  split <;> exact ⟨rfl, rfl⟩

theorem regionsAfterRst_canonical {t : Table Region} (h : Table.Canonical Region.atPor t) :
    Table.Canonical Region.atPor (regionsAfterRst t) :=
  Table.filterMap_canonical h fun c _ x hx => by
    split at hx
    next => cases hx
    next hne => obtain rfl := Option.some.inj hx; exact ⟨rfl, hne⟩

/-- What the region table lists at a key after RST#. -/
theorem find_regionsAfterRst {t : Table Region} {k : Nat} {r : Region}
    (h : Table.find t k = some r) (hr : r.afterRst ≠ Region.atPor) :
    Table.find (regionsAfterRst t) k = some r.afterRst := by
  induction t with
  | nil => cases h
  | cons c rest ih =>
    rw [Table.find] at h
    unfold regionsAfterRst
    rw [List.filterMap_cons]
    split at h
    next hk =>
      obtain rfl := Option.some.inj h
      simp [hr, hk, Table.find]
    next hk =>
      have ih := ih h
      unfold regionsAfterRst at ih
      by_cases hc : c.2.afterRst = Region.atPor
      · simpa [hc] using ih
      · simpa [hc, Table.find, hk] using ih

theorem rstValues_frozen (s : State) (i : Fin 16) (h : (regionAt s i).frozen = true) :
    regionAt (rstValues s) i = regionAt s i := by
  unfold regionAt Table.read at h ⊢
  cases hf : Table.find s.regions i.val with
  | none => rw [hf] at h; cases h
  | some r =>
    rw [hf] at h
    have kept : r.afterRst = r := if_pos h
    have listed : r.afterRst ≠ Region.atPor := by rw [kept]; rintro rfl; cases h
    change (Table.find (regionsAfterRst s.regions) i.val).getD _ = _
    rw [find_regionsAfterRst hf listed, kept]

theorem wmb_empty_orderly (delay : BitVec 16) :
    WmbOrderly { State.reset.wmb with commitDelay := delay } where
  size := Nat.zero_le _
  openCount := Nat.zero_lt_of_lt (Nat.lt_succ_self 23)
  rising := List.Pairwise.nil
  openBelow := fun _ h => nomatch h
  sealBelow := fun _ h => nomatch h
  oneOpen := List.Pairwise.nil
  places := fun _ h => nomatch h
  notFull := fun _ h => nomatch h
  boundary := fun _ h => nomatch h

theorem isReset_iff (c : Instr) : isReset c = true ↔ c = .por ∨ c = .rstAsserted := by
  cases c <;> simp [isReset]

/-- A reset is POR or RST#; the state it completes in. -/
theorem exec_reset {c : Instr} {s t : State} (hc : isReset c = true) (h : exec c s = .next t) :
    c = .por ∧ t = porValues (cutBoth s) ∨ c = .rstAsserted ∧ t = rstValues (cutBoth s) := by
  rcases (isReset_iff c).1 hc with rfl | rfl <;> injection h with h
  · exact .inl ⟨rfl, h.symm⟩
  · exact .inr ⟨rfl, h.symm⟩

/-! ### Steps -/

theorem elapse_eq_of_idle {s t : State} (h : idle s = .next t) :
    (∃ c, exec c s = .next t) ∨ t = elapse 1 s := by
  unfold idle at h
  split at h
  next c _ => exact .inl ⟨c, h⟩
  next => injection h with h; exact .inr h.symm

/-- A step is a command on the state with some queue, or 1 µs. -/
theorem step_cases {s t : State} (h : step s = .next t) :
    (∃ c q, exec c { s with pending := q } = .next t) ∨ t = elapse 1 s := by
  unfold step at h
  split at h
  next c rest _ => exact .inl ⟨c, rest, h⟩
  next =>
    rcases elapse_eq_of_idle h with ⟨c, hc⟩ | ht
    · exact .inl ⟨c, s.pending, hc⟩
    · exact .inr ht

/-- What every command keeps and the passing of time keeps, and no queue touches, every step keeps. -/
theorem step_keeps {Inv : State → Prop} (queue : ∀ s q, Inv s → Inv { s with pending := q })
    (command : ∀ c s t, Inv s → exec c s = .next t → Inv t)
    (time : ∀ s, Inv s → Inv (elapse 1 s)) {s t : State} (hs : Inv s) (h : step s = .next t) :
    Inv t := by
  rcases step_cases h with ⟨c, q, hc⟩ | rfl
  · exact command c _ t (queue s q hs) hc
  · exact time s hs

/-- The passing of time keeps what every command keeps. -/
theorem elapse_keeps (c : Instr) (dt : Nat) (s : State) : Keeps c s (elapse dt s) :=
  (Keeps.refl c s).elapse

/-! ### The obligations -/

theorem exec_tables {c : Instr} {s t : State} (hs : TablesCanonical s) (h : exec c s = .next t) :
    TablesCanonical t := by
  cases hc : isReset c with
  | false => exact (exec_keeps hc h).tables hs
  | true =>
    obtain ⟨m, n, hcut⟩ := cutBoth_shape s
    have wf := cutBoth_wf hs.medium
    rcases exec_reset hc h with ⟨-, rfl⟩ | ⟨-, rfl⟩
    · exact porValues_tables wf
    · have regions : (cutBoth s).regions = s.regions := by rw [hcut]; rfl
      exact { porValues_tables wf with
        regions := regionsAfterRst_canonical (regions ▸ hs.regions) }

/-- Settles O4: every write to a stored table keeps its canonical form, and a reset empties the tables or
filters the regions. -/
theorem stepKeepsTablesCanonical : Obligations.StepKeepsTablesCanonical := by
  intro s t hs h
  exact step_keeps (fun s q hs => { hs with }) (fun c s t hs h => exec_tables hs h)
    (fun s hs => (elapse_keeps .status 1 s).tables hs) hs h

theorem exec_wmbOrderly {c : Instr} {s t : State} (hs : WmbOrderly s.wmb)
    (h : exec c s = .next t) : WmbOrderly t.wmb := by
  cases hc : isReset c with
  | false => exact (exec_keeps hc h).wmb hs
  | true =>
    rcases exec_reset hc h with ⟨-, rfl⟩ | ⟨-, rfl⟩ <;> exact wmb_empty_orderly _

/-- Settles O5: sealing, merging, opening, freeing and restaging each keep the buffer's orders, and a
reset empties it. -/
theorem stepKeepsWmbOrderly : Obligations.StepKeepsWmbOrderly := by
  intro s t hs h
  exact step_keeps (Inv := fun s => WmbOrderly s.wmb) (fun s q hs => hs)
    (fun c s t hs h => exec_wmbOrderly hs h) (fun s hs => (elapse_keeps .status 1 s).wmb hs) hs h

theorem exec_pausesBounded {c : Instr} {s t : State} (hs : PausesBounded s)
    (h : exec c s = .next t) : PausesBounded t := by
  cases hc : isReset c with
  | false => exact (exec_keeps hc h).pauses hs
  | true => rcases exec_reset hc h with ⟨-, rfl⟩ | ⟨-, rfl⟩ <;> exact ⟨trivial, trivial⟩

theorem exec_regionsOrdered {c : Instr} {s t : State} (hs : RegionsOrdered s)
    (h : exec c s = .next t) : RegionsOrdered t := by
  cases hc : isReset c with
  | false => exact (exec_keeps hc h).regions hs
  | true =>
    obtain ⟨m, n, hcut⟩ := cutBoth_shape s
    rcases exec_reset hc h with ⟨-, rfl⟩ | ⟨-, rfl⟩
    · exact fun _ hx => nomatch hx
    · intro x hx
      rw [hcut] at hx
      obtain ⟨y, hy, hyx⟩ := List.mem_filterMap.1 hx
      split at hyx
      · cases hyx
      · obtain rfl := Option.some.inj hyx
        obtain ⟨first, last⟩ := y.2.afterRst_pages
        simpa [first, last] using hs y hy

theorem exec_linkBounded {c : Instr} {s t : State} (hs : LinkBounded s)
    (h : exec c s = .next t) : LinkBounded t := by
  cases hc : isReset c with
  | false => exact (exec_keeps hc h).link hs
  | true =>
    obtain ⟨m, n, hcut⟩ := cutBoth_shape s
    rcases exec_reset hc h with ⟨-, rfl⟩ | ⟨-, rfl⟩
    · exact ⟨Nat.zero_le _, show (50 : BitVec 16) ≠ 0 by decide⟩
    · refine ⟨Nat.zero_le _, ?_⟩
      rw [hcut]
      exact hs.2

/-- Settles O6: a PAUSE is issued below the budget alone, a region is written with its pages in order, a
record joins a queue with room alone, and no threshold of 0 is set. -/
theorem stepKeepsBounds : Obligations.StepKeepsBounds := by
  refine ⟨fun s t hs h => ?_, fun s t hr hl h => ⟨?_, ?_⟩⟩
  · exact step_keeps (fun s q hs => hs) (fun c s t hs h => exec_pausesBounded hs h)
      (fun s hs => (elapse_keeps .status 1 s).pauses hs) hs h
  · exact step_keeps (fun s q hs => hs) (fun c s t hs h => exec_regionsOrdered hs h)
      (fun s hs => (elapse_keeps .status 1 s).regions hs) hr h
  · exact step_keeps (fun s q hs => hs) (fun c s t hs h => exec_linkBounded hs h)
      (fun s hs => (elapse_keeps .status 1 s).link hs) hl h

/-- Settles O9: the state is set to STARTING, and DEGRADED with reason GENERATION cleared, in no write of
a command but a reset. -/
theorem resetAloneRestarts : Obligations.ResetAloneRestarts :=
  fun _ _ _ hc h => ⟨(exec_keeps hc h).op, (exec_keeps hc h).degraded⟩

/-- Settles O10: the one write to the table tests FROZEN or keeps what stands, and RST# keeps a frozen
entry. -/
theorem frozenRegionStays : Obligations.FrozenRegionStays := by
  intro c s t i hpor hfrozen h
  cases hc : isReset c with
  | false => exact (exec_keeps hc h).frozen i hfrozen
  | true =>
    obtain ⟨m, n, hcut⟩ := cutBoth_shape s
    rcases exec_reset hc h with ⟨rfl, -⟩ | ⟨-, rfl⟩
    · exact absurd rfl hpor
    · rw [hcut]
      exact rstValues_frozen ((s.setMedium m).setDraws n) i hfrozen

/-- Settles O11: a write to the map but at a switch, a release's end, the scan's end and a reset keeps
every binding. -/
theorem bindingChangesOnlyThen : Obligations.BindingChangesOnlyThen := by
  intro c s t l hrebind h
  have hc : isReset c = false := Bool.eq_false_iff.2 fun hc => by
    rcases (isReset_iff c).1 hc with rfl | rfl <;> cases hrebind
  exact (exec_keeps hc h).binding hrebind l

/-- Settles O13: a counter is written by a saturating increase alone, but at a reset and at CLEAR
COUNTERS. -/
theorem countersOnlyRise : Obligations.CountersOnlyRise :=
  fun _ _ _ hc hclear h => (exec_keeps hc h).counters hclear

end Sys2Proof.Machine
end

section
/-!
PROOFS. What a command may do in FAILED (R41, R75, R97, R109, R129, R165): no result is delivered, no
scheduler chooses, no sector is queued; what is left is the port, the link, the buffer and time.
-/

namespace Sys2Proof.Machine

open Sys2Proof

/-- A die in FAILED keeps its state, its requests and its offline mark; in RESETTING it is timed, and its
READY or its offline mark is noted. -/
def DieInert (a b : Die) : Prop :=
  ((∀ cause time answered, a.state ≠ .resetting cause time answered) →
    b = { a with reported := b.reported }) ∧
  (∀ cause time answered, a.state = .resetting cause time answered →
    b.waiting = a.waiting ∧ (a.offline = true → b.offline = true) ∧
    ∃ time' answered', b.state = .resetting cause time' answered' ∧ time ≤ time' ∧
      (answered = true → answered' = true))

theorem DieInert.refl (a : Die) : DieInert a a :=
  ⟨fun _ => rfl, fun _ time answered h => ⟨rfl, id, time, answered, h, Nat.le_refl _, id⟩⟩

theorem DieInert.trans {a b c : Die} (h : DieInert a b) (h' : DieInert b c) : DieInert a c := by
  refine ⟨fun ha => ?_, fun cause time answered ha => ?_⟩
  · have hb := h.1 ha
    have state : b.state = a.state := by rw [hb]
    have hc := h'.1 fun cause time answered => state ▸ ha cause time answered
    rw [hc, hb]
  · obtain ⟨waiting, offline, time', answered', hb, htime, hans⟩ := h.2 cause time answered ha
    obtain ⟨waiting', offline', time'', answered'', hc, htime', hans'⟩ :=
      h'.2 cause time' answered' hb
    exact ⟨waiting'.trans waiting, offline' ∘ offline, time'', answered'', hc,
      Nat.le_trans htime htime', hans' ∘ hans⟩

theorem DieInert.of_resetting {a b : Die} {cause : ResetCause} {time time' : Nat}
    {answered answered' : Bool} (ha : a.state = .resetting cause time answered)
    (hb : b.state = .resetting cause time' answered') (waiting : b.waiting = a.waiting)
    (offline : a.offline = true → b.offline = true) (htime : time ≤ time')
    (hans : answered = true → answered' = true) : DieInert a b := by
  refine ⟨fun hn => absurd ha (hn _ _ _), fun c t x hx => ?_⟩
  rw [ha] at hx
  cases hx
  exact ⟨waiting, offline, time', answered', hb, htime, hans⟩

/-- What no command but a reset changes in FAILED. -/
structure Inert (s t : State) : Prop where
  op : t.power.op = .failed
  degraded : t.power.degraded = s.power.degraded
  medium : t.medium = s.medium
  draws : t.draws = s.draws
  map : t.map = s.map
  acct : t.acct = s.acct
  lanes : t.lanes = s.lanes
  reloc : t.reloc = s.reloc
  erase : t.erase = s.erase
  release : t.release = s.release
  scan : t.scan = s.scan
  regions : t.regions = s.regions
  dies : ∀ d, DieInert (s.dies.get d) (t.dies.get d)

section

variable {s t : State}

theorem Inert.refl (h : s.power.op = .failed) : Inert s s :=
  ⟨h, rfl, rfl, rfl, rfl, rfl, rfl, rfl, rfl, rfl, rfl, rfl, fun _ => DieInert.refl _⟩

theorem Inert.setWmb (h : Inert s t) (w : Wmb) : Inert s (t.setWmb w) := { h with }

theorem Inert.setHost (h : Inert s t) (x : HostPort) : Inert s (t.setHost x) := { h with }

theorem Inert.setLink (h : Inert s t) (x : Link) : Inert s (t.setLink x) := { h with }

theorem Inert.setPower (h : Inert s t) {p : Power} (op : p.op = t.power.op)
    (degraded : p.degraded = t.power.degraded) : Inert s (t.setPower p) :=
  { h with op := op.trans h.op, degraded := degraded.trans h.degraded }

theorem Inert.setDie (h : Inert s t) {d : DieId} {x : Die} (hx : DieInert (t.dies.get d) x) :
    Inert s (setDie d x t) :=
  { h with
    dies := fun e => by
      by_cases he : e = d
      · subst he
        rw [setDie_get_same]
        exact (h.dies e).trans hx
      · rw [setDie_get_other _ _ he]
        exact h.dies e }

theorem Inert.record (h : Inert s t) (b : RecordBody) : Inert s (record b t) := by
  obtain ⟨l, e⟩ := record_shape b t
  rw [e]
  exact h.setLink l

theorem Inert.sealEntry (h : Inert s t) (id : Nat) : Inert s (sealEntry id t) := by
  rcases sealEntry_cases id t with ⟨e, -⟩ | ⟨x, -, -, -, e | ⟨hop, -⟩⟩
  · rwa [e]
  · rw [e]; exact h.setWmb _
  · exact absurd h.op hop

theorem Inert.sealAll (h : Inert s t) : Inert s (sealAll t) := by
  unfold Machine.sealAll sealWhere
  generalize (t.wmb.entries.filter _).map (·.openOrder) = ids
  induction ids generalizing t with
  | nil => exact h
  | cons id rest ih => exact ih (h.sealEntry id)

theorem Inert.countStall (h : Inert s t) : Inert s (countStall t) := by
  obtain ⟨p, l, e⟩ := countStall_shape t
  rw [e]
  exact (h.setHost p).setLink l

/-- The time that passes at a die (R119, R122). -/
theorem elapse_get (dt : Nat) (s : State) (d : DieId) :
    (elapse dt s).dies.get d = (s.dies.get d).elapse s.power.op dt := by
  obtain ⟨p, l, e⟩ := countStall_shape (advance dt s)
  rw [elapse, e]
  cases d <;> rfl

@[simp] theorem record_dies (b : RecordBody) (s : State) : (record b s).dies = s.dies := by
  obtain ⟨l, e⟩ := record_shape b s
  rw [e]; rfl

/-- Time in FAILED counts at a DIE RESET alone (R129). -/
theorem Die.elapse_inert (dt : Nat) (die : Die) : DieInert die (die.elapse .failed dt) := by
  cases hst : die.state
  case resetting =>
    exact .of_resetting hst (by rw [Die.elapse_state, hst]; rfl) rfl id (Nat.le_add_right _ _) id
  all_goals
    refine ⟨fun _ => ?_, fun _ _ _ h => by rw [hst] at h; cases h⟩
    cases die
    cases hst
    rfl

theorem Inert.elapse (h : Inert s t) (dt : Nat) : Inert s (elapse dt t) := by
  have advanced : Inert s (advance dt t) :=
    { h with
      dies := fun d => by
        refine (h.dies d).trans ?_
        have timed := Die.elapse_inert dt (t.dies.get d)
        rw [← h.op] at timed
        cases d <;> exact timed }
  exact advanced.countStall

/-! ### The operations that act in FAILED -/

theorem Inert.completeRead (h : Inert s t) {c : HostCycle} {w : HostWord} :
    Inert s (completeRead c w t) := (h.setHost _).setLink _

theorem Inert.refuseWrite (h : Inert s t) {c : HostCycle} : Inert s (refuseWrite c t) :=
  (h.setHost _).setLink _

/-- A cycle handled in FAILED completes (R141). -/
theorem Inert.handleArrival (h : Inert s t) (x : HeldCycle) : Inert s (handleArrival x t) := by
  unfold Machine.handleArrival
  rw [h.op]
  split
  · split <;> exact h.setHost _
  · split
    case h_2 => exact h.completeRead
    case h_3 => exact h.refuseWrite
    all_goals simp_all

theorem Inert.abandonCycle (h : Inert s t) : Inert s (abandonCycle t) := by
  unfold Machine.abandonCycle
  split
  case h_6 | h_7 => exact h
  all_goals exact h.setHost _

theorem Inert.endCycle (h : Inert s t) : Inert s (endCycle t) := by
  unfold Machine.endCycle
  split
  · exact h.setHost _
  all_goals exact h

theorem Inert.arrive (h : Inert s t) (c : HostCycle) : Inert s (arrive c t) := by
  have free := h.abandonCycle.endCycle
  unfold Machine.arrive
  dsimp only
  split
  · exact free.setHost _
  · split
    · exact free.setHost _
    all_goals exact free.handleArrival _

theorem Inert.releaseRst (h : Inert s t) : Inert s (releaseRst t) := by
  have released : Inert s (t.setPower { t.power with rst := false }) := h.setPower rfl rfl
  have noScan {u : State} (hu : Inert s u) : Inert s (scanIfReady .die1 (scanIfReady .die0 u)) := by
    have starting : u.power.op ≠ .starting := by rw [hu.op]; exact OpState.noConfusion
    simpa [scanIfReady, starting] using hu
  unfold Machine.releaseRst
  dsimp only
  refine noScan ?_
  split
  · exact (released.setHost _).handleArrival _
  all_goals exact released

theorem Inert.reportDrain (h : Inert s t) : Inert s (reportDrain t) := by
  have done {u : State} (hu : Inert s u) : Inert s (longDone u) := by
    unfold longDone
    split
    · exact hu.setLink _
    · exact hu
  unfold Machine.reportDrain
  dsimp only
  split
  · split
    · exact done (h.setWmb _)
    · exact h.setWmb _
  · exact h

theorem Inert.readyDisregarded (h : Inert s t) (d : DieId) : Inert s (readyDisregarded d t) := by
  unfold Machine.readyDisregarded
  split
  next hst => exact h.setDie (.of_resetting hst rfl rfl id (Nat.le_refl _) fun _ => rfl)
  all_goals exact h

theorem Inert.dieReady (h : Inert s t) (d : DieId) (p : ResetCause → Bool) :
    Inert s (dieReady d p t) := by
  unfold Machine.dieReady
  split
  · split
    · rw [if_pos h.op]; exact h.readyDisregarded d
    · exact h
  all_goals exact h

theorem Inert.dieResetTimesOut (h : Inert s t) (d : DieId) : Inert s (dieResetTimesOut d t) := by
  unfold Machine.dieResetTimesOut
  split
  case h_1 cause time answered hst =>
    split
    · exact h
    · dsimp only
      have timed := (h.elapse (resetLimit - time)).record (.dieOffline d)
      have resets : ((Machine.record (.dieOffline d) (Machine.elapse (resetLimit - time) t)).dies.get
          d).state = .resetting cause (time + (resetLimit - time)) answered := by
        rw [record_dies, elapse_get, Die.elapse_state, hst]; rfl
      generalize Machine.record (.dieOffline d) (Machine.elapse (resetLimit - time) t) = u
        at timed resets ⊢
      have marked : Inert s (Machine.setDie d { u.dies.get d with offline := true } u) :=
        timed.setDie (.of_resetting resets resets rfl (fun _ => rfl) (Nat.le_refl _) id)
      rw [enterFailed, if_pos marked.op]
      exact marked
  all_goals exact h

theorem Inert.respond (h : Inert s t) (code : ResponseCode) (command : Byte) (data : List Byte) :
    Inert s (respond code command data t) := h.setLink _

theorem Inert.answerReadFault (h : Inert s t) : Inert s (answerReadFault t) := by
  unfold Machine.answerReadFault
  split <;> exact (h.setLink _).setLink _

theorem Inert.unlessRefused (h : Inert s t) (command : Byte) (answer : State → State) :
    Inert s (unlessRefused command answer t) := by
  rw [Machine.unlessRefused, stateRefusal, h.op]
  exact h.respond _ _ _

theorem Inert.unlessStarting (h : Inert s t) (command : Byte) {answer : State → State}
    (ha : Inert s (answer t)) : Inert s (unlessStarting command answer t) := by
  rwa [Machine.unlessStarting, if_neg (by rw [h.op]; exact OpState.noConfusion)]

end

/-! ### The obligation -/

theorem exec_inert_unframed {c : Instr} {s t : State} (hc : isReset c = false)
    (hf : ∀ bytes, c ≠ .badCommandFrame bytes) (hop : s.power.op = .failed)
    (h : exec c s = .next t) : Inert s t := by
  have r := Inert.refl hop
  have level (x : Power) (op : x.op = s.power.op) (degraded : x.degraded = s.power.degraded) :
      Inert s (s.setPower x) := r.setPower op degraded
  cases c
  case por | rstAsserted => cases hc
  case badCommandFrame bytes => exact absurd rfl (hf bytes)
  all_goals injection h with h; subst h
  case rstReleased =>
    split
    · rw [settle_failed r.releaseRst.op]; exact r.releaseRst
    · exact r
  case pfailAsserted | pfailReleased =>
    rw [if_neg (by rw [hop]; exact OpState.noConfusion)]
    exact level _ rfl rfl
  case flushFallingEdge => exact r.sealAll
  case hostRead => rw [settle_failed (r.arrive _).op]; exact r.arrive _
  case hostWrite => exact r.arrive _
  case hostCycleAbandoned => exact r.abandonCycle
  case hostCycleEnd => exact r.endCycle
  case commitDelayExpiry =>
    split
    · exact (r.elapse _).sealEntry _
    · exact r
  case longStall =>
    split
    · split
      · exact r
      · exact r.elapse _
    · exact r
  case heldWritePresented => simpa [presentHeldWrite, hop] using r
  case flushDrain => exact r.reportDrain
  case laneTake | relocationTake => rw [if_neg (by simp [hop])]; exact r
  case eraseStart => rw [if_neg (by simp [eraseMayStart, hop])]; exact r
  case scanEnd => rw [if_neg (by simp [hop])]; exact r
  case laneReadLineResult | laneProgramLineResult | countResult | eraseRetireResult
    | readTagResult => rw [answering_failed _ _ hop]; exact r
  case spareReport =>
    split
    next j hj =>
      have waits : spareReported s = s := by simp [spareReported, hj, reportHeard, hop]
      rw [waits, settle_failed hop]; exact r
    next => exact r
  case claimResult | sealResult | sourceRetireResult | targetRetireResult
    | copyProgramLineResult =>
    split
    · rw [relocationAnswers, answering_failed _ _ hop]; exact r
    · exact r
  case copyReadLineResult =>
    split
    · split
      · rw [relocationAnswers, answering_failed _ _ hop]; exact r
      · exact r
    · exact r
  case eraseSectorResult d ok =>
    split
    · rw [if_neg (by simp [eraseAwaited, hop])]; exact r
    · exact r
  case releaseProgramResult | releaseRetireResult | hostReadLineResult =>
    split
    · rw [answering_failed _ _ hop]; exact r
    · exact r
  case pauseAnswer | progressIntervalReached | operationTimeout | pauseTimeout =>
    rw [if_pos hop]; exact r
  case dieResetTimeout => exact r.dieResetTimesOut _
  case dieReadyAfterReset | dieReadyAfterTimeout | dieReadyAfterPauseTimeout
    | dieReadyAfterAbandon => exact r.dieReady _ _
  case status => exact r.respond _ _ _
  case readCounters => exact r.unlessStarting _ (r.respond _ _ _)
  case readFault => exact r.unlessStarting _ r.answerReadFault
  all_goals exact r.unlessRefused _ _

theorem exec_inert {c : Instr} {s t : State} (hc : isReset c = false) (hop : s.power.op = .failed)
    (h : exec c s = .next t) : Inert s t := by
  by_cases hf : ∃ bytes, c = .badCommandFrame bytes
  · obtain ⟨bytes, rfl⟩ := hf
    rcases badFrame_cases h with ⟨code, command, rfl⟩ | rfl | ⟨c, -, hframe, hrun⟩
    · exact (Inert.refl hop).respond _ _ _
    · exact Inert.refl hop
    · obtain ⟨-, -, hreset, hbad⟩ := commandParts_plain hframe
      exact exec_inert_unframed hreset hbad hop hrun
  · exact exec_inert_unframed hc (fun bytes hb => hf ⟨bytes, hb⟩) hop h

/-- Settles O8: in FAILED each command changes at most the port, the link, the buffer, the pins' levels
and time, and at a die what time and READY note. -/
theorem failedDoesNoWork : Obligations.FailedDoesNoWork := by
  intro c s t hc hop h
  obtain ⟨op, degraded, medium, draws, map, acct, lanes, reloc, erase, release, scan, regions, dies⟩ :=
    exec_inert hc hop h
  exact ⟨op, degraded, medium, draws, map, acct, lanes, reloc, erase, release, scan, regions, dies⟩

end Sys2Proof.Machine
end

section
/-!
PROOFS. While the state is STARTING the blocks hold nothing (R22, R41, R54, R60, R79, R99): a block that
holds nothing does nothing, so a command leaves them empty or ends STARTING.
-/

namespace Sys2Proof.Machine

open Sys2Proof

/-- The part in STARTING with its blocks empty. -/
structure Asleep (s : State) : Prop where
  op : s.power.op = .starting
  degraded : s.power.degraded = none
  entries : s.wmb.entries = []
  boundary : s.wmb.boundary = none
  map : s.map = []
  acct : s.acct = { recs := [], pool := [], eraseQueue := [], retired := [] }
  lanes : s.lanes = ⟨.idle, .idle⟩
  reloc : s.reloc = { queue := [], engine := .idle, generation := none }
  erase : s.erase = { slots := ⟨.idle, .idle⟩, pauseList := [] }
  release : s.release = none

theorem startingQuiet_iff (s : State) : StartingQuiet s ↔ (s.power.op = .starting → Asleep s) := by
  constructor
  · rintro ⟨entries, sets, engines, degraded⟩ hop
    obtain ⟨lanes, reloc, erase, release⟩ := engines hop
    exact ⟨hop, degraded hop, (entries hop).1, (entries hop).2, (sets hop).1, (sets hop).2, lanes,
      reloc, erase, release⟩
  · intro h
    exact ⟨fun hop => ⟨(h hop).entries, (h hop).boundary⟩, fun hop => ⟨(h hop).map, (h hop).acct⟩,
      fun hop => ⟨(h hop).lanes, (h hop).reloc, (h hop).erase, (h hop).release⟩,
      fun hop => (h hop).degraded⟩

section

variable {s : State}

theorem Asleep.engine (h : Asleep s) : s.reloc.engine = .idle := by rw [h.reloc]

theorem Asleep.lane (h : Asleep s) (d : DieId) : s.lanes.get d = .idle := by
  rw [h.lanes]; cases d <;> rfl

theorem Asleep.slot (h : Asleep s) (d : DieId) : s.erase.slots.get d = .idle := by
  rw [h.erase]; cases d <;> rfl

/-! ### Writes to the blocks that work in STARTING -/

theorem Asleep.setHost (h : Asleep s) (x : HostPort) : Asleep (s.setHost x) := { h with }

theorem Asleep.setLink (h : Asleep s) (x : Link) : Asleep (s.setLink x) := { h with }

theorem Asleep.setDies (h : Asleep s) (x : PerDie Die) : Asleep (s.setDies x) := { h with }

theorem Asleep.setScan (h : Asleep s) (x : Scanner) : Asleep (s.setScan x) := { h with }

theorem Asleep.setMedium (h : Asleep s) (x : Memory) : Asleep (s.setMedium x) := { h with }

theorem Asleep.setDraws (h : Asleep s) (x : Nat) : Asleep (s.setDraws x) := { h with }

theorem Asleep.setPower (h : Asleep s) {p : Power} (op : p.op = s.power.op)
    (degraded : p.degraded = s.power.degraded) : Asleep (s.setPower p) :=
  { h with op := op.trans h.op, degraded := degraded.trans h.degraded }

theorem Asleep.record (h : Asleep s) (b : RecordBody) : Asleep (record b s) := by
  obtain ⟨l, e⟩ := record_shape b s
  rw [e]; exact h.setLink l

theorem Asleep.settle (h : Asleep s) : Asleep (settle s) := by
  obtain ⟨ds, m, n, e⟩ := settle_shape s
  rw [e]; exact ((h.setDies ds).setMedium m).setDraws n

theorem Asleep.endOperation (h : Asleep s) (d : DieId) : Asleep (endOperation d s) := by
  obtain ⟨ds, e⟩ := endOperation_shape d s
  rw [e]; exact h.setDies ds

theorem Asleep.endProgram (h : Asleep s) (op : DieOp) (ok : Bool) : Asleep (endProgram op ok s).1 :=
  (h.setMedium _).setDraws _

theorem Asleep.dieReset (h : Asleep s) (d : DieId) (cause : ResetCause) :
    Asleep (dieReset d cause s) := by
  obtain ⟨ds, m, n, e⟩ := dieReset_shape d cause s
  rw [e]; exact ((h.setDies ds).setMedium m).setDraws n

theorem Asleep.issue (h : Asleep s) (who : Requester) (op : DieOp) : Asleep (issue who op s) :=
  h.setDies _

theorem Asleep.elapse (h : Asleep s) (dt : Nat) : Asleep (elapse dt s) := by
  have advanced : Asleep (advance dt s) :=
    { h with entries := by change s.wmb.entries.map _ = []; rw [h.entries]; rfl }
  obtain ⟨p, l, e⟩ := countStall_shape (advance dt s)
  rw [Machine.elapse, e]
  exact (advanced.setHost p).setLink l

/-! ### The operations in STARTING -/

/-- Nothing is OPEN, so nothing is sealed. -/
theorem Asleep.sealAll_eq (h : Asleep s) : sealAll s = s := by
  simp [sealAll, sealWhere, h.entries]

/-- A cycle that arrives in STARTING is held (R140). -/
theorem Asleep.handleArrival (h : Asleep s) (x : HeldCycle) : Asleep (handleArrival x s) := by
  have held : Machine.handleArrival x s = setPort (.holding x) s := by
    simp [Machine.handleArrival, h.op]
  rw [held]; exact h.setHost _

theorem Asleep.portReturns (h : Asleep s) (next : Option HeldCycle) : Asleep (portReturns next s) := by
  unfold Machine.portReturns
  split
  · exact (h.setHost _).handleArrival _
  · exact h.setHost _

theorem Asleep.abandonCycle (h : Asleep s) : Asleep (abandonCycle s) := by
  unfold Machine.abandonCycle
  split
  case h_6 | h_7 => exact h
  all_goals exact h.setHost _

theorem Asleep.endCycle (h : Asleep s) : Asleep (endCycle s) := by
  unfold Machine.endCycle
  split
  · exact h.setHost _
  all_goals exact h

theorem Asleep.arrive (h : Asleep s) (c : HostCycle) : Asleep (arrive c s) := by
  have free := h.abandonCycle.endCycle
  unfold Machine.arrive
  dsimp only
  split
  · exact free.setHost _
  · split
    · exact free.setHost _
    all_goals exact free.handleArrival _

theorem Asleep.portReadResult (h : Asleep s) (line : LineData) : Asleep (portReadResult line s) := by
  unfold Machine.portReadResult
  split
  · exact (h.setHost _).setLink _
  · exact h.portReturns _
  all_goals exact h

theorem Asleep.portReadTimeout (h : Asleep s) : Asleep (portReadTimeout s) := by
  unfold Machine.portReadTimeout
  split
  · exact h.issue _ _
  · exact h.portReturns _
  all_goals exact h

theorem Asleep.scanIfReady (h : Asleep s) (d : DieId) : Asleep (scanIfReady d s) := by
  unfold Machine.scanIfReady
  split
  · exact (h.setScan _).issue _ _
  · exact h

theorem Asleep.releaseRst (h : Asleep s) : Asleep (releaseRst s) := by
  have released : Asleep (s.setPower { s.power with rst := false }) := h.setPower rfl rfl
  unfold Machine.releaseRst
  dsimp only
  refine Asleep.scanIfReady (.scanIfReady ?_ _) _
  split
  · exact (released.setHost _).handleArrival _
  all_goals exact released

theorem Asleep.scanTag (h : Asleep s) (d : DieId) (p : Phys) (tag : List Byte) :
    Asleep (scanTag d p tag s) := by
  have recorded : Asleep (if (classifyTag tag).garbled then Machine.record (.garbledTag p) s else s) := by
    split
    · exact h.record _
    · exact h
  unfold Machine.scanTag
  dsimp only
  split
  · exact ((recorded.setScan _).setScan _).issue _ _
  · exact (recorded.setScan _).setScan _

/-- A block that holds nothing takes no TIMEOUT; the port and the scanner ask again. -/
theorem Asleep.deliverTimeout (h : Asleep s) (d : DieId) (who : Requester) (op : DieOp) :
    Asleep (deliverTimeout d who op s) := by
  cases who <;> dsimp only [Machine.deliverTimeout]
  case hostPort => exact h.portReadTimeout
  case lane =>
    split
    · simpa [laneReadTimeout, h.lane d] using h
    · simpa [laneProgramFails, h.lane d] using h
  case relocation =>
    unfold relocationTimeout
    split
    · exact h.issue _ _
    · simpa [copyProgramEnds, h.engine] using h
    · simpa [claimEnds, h.engine] using h
    · simpa [sealEnds, h.engine] using h
    · simpa [targetRetireEnds, sourceRetireEnds, h.engine] using h
    all_goals exact h
  case eraseSlot =>
    unfold slotTimeout
    split
    · simpa [h.slot d] using h
    · simpa [countEnds, h.slot d] using h
    · simpa [slotRetireEnds, h.slot d] using h
    all_goals exact h
  case release =>
    unfold releaseTimeout
    split
    · simpa [releaseMarkEnds, h.release] using h
    · simpa [releaseRetireEnds, h.release] using h
    all_goals exact h
  case scanner => exact h.issue _ _

theorem Asleep.readyBrings (h : Asleep s) (d : DieId) (cause : ResetCause) :
    Asleep (readyBrings d cause s) := by
  have abandoned {u : State} (hu : Asleep u) : Asleep (abandonReported d u) := by
    simpa [abandonReported, hu.slot d] using hu
  unfold Machine.readyBrings
  split
  · exact h.scanIfReady _
  · dsimp only
    split
    · exact abandoned (h.deliverTimeout _ _ _)
    · exact h.deliverTimeout _ _ _
  · simpa [pauseTimeoutReported, h.slot d] using h
  · exact abandoned h

theorem Asleep.dieReady (h : Asleep s) (d : DieId) (p : ResetCause → Bool) :
    Asleep (dieReady d p s) := by
  unfold Machine.dieReady
  split
  · split
    · rw [if_neg (by rw [h.op]; exact OpState.noConfusion)]
      exact ((h.setDies _).readyBrings _ _).settle
    · exact h
  all_goals exact h

theorem Asleep.operationTimesOut (h : Asleep s) (d : DieId) : Asleep (operationTimesOut d s) := by
  unfold Machine.operationTimesOut
  split
  case h_1 | h_2 | h_3 | h_4 => exact (h.elapse _).dieReset _ _
  all_goals exact h

theorem Asleep.pauseTimesOut (h : Asleep s) (d : DieId) : Asleep (pauseTimesOut d s) := by
  unfold Machine.pauseTimesOut
  split
  · exact ((h.elapse _).record _).dieReset _ _
  all_goals exact h

theorem Asleep.pauseAnswered (h : Asleep s) (d : DieId) (held : Bool) :
    Asleep (pauseAnswered d held s) := by
  unfold Machine.pauseAnswered
  split
  · exact (h.setDies _).setLink _
  · exact h.setDies _
  · exact h

theorem Asleep.unlessRefused (h : Asleep s) (command : Byte) (answer : State → State) :
    Asleep (unlessRefused command answer s) := by
  rw [Machine.unlessRefused, stateRefusal, h.op]
  exact h.setLink _

theorem Asleep.unlessStarting (h : Asleep s) (command : Byte) (answer : State → State) :
    Asleep (unlessStarting command answer s) := by
  rw [Machine.unlessStarting, if_pos h.op]
  exact h.setLink _

end

/-! ### STARTING ends -/

theorem portEntersFailed_power (s : State) : (portEntersFailed s).power = s.power := by
  unfold portEntersFailed
  split
  case h_2 next _ _ =>
    obtain ⟨w, m, r, ds, p, l, e⟩ := portReturns_shape next s
    rw [e]; rfl
  case h_4 h _ =>
    obtain ⟨w, m, r, ds, p, l, e⟩ := handleArrival_shape h s
    rw [e]; rfl
  all_goals rfl

theorem enterFailed_op (s : State) : (enterFailed s).power.op = .failed := by
  unfold enterFailed
  split
  next h => exact h
  next => rw [portEntersFailed_power]; rfl

/-- A DIE RESET that is not answered brings FAILED (R121, R165), or none is awaited. -/
theorem dieResetTimesOut_cases (d : DieId) (s : State) :
    dieResetTimesOut d s = s ∨ (dieResetTimesOut d s).power.op = .failed := by
  unfold dieResetTimesOut
  split
  · split
    · exact .inl rfl
    · exact .inr (enterFailed_op _)
  all_goals exact .inl rfl

theorem handleHeldCycle_power (s : State) : (handleHeldCycle s).power = s.power := by
  unfold handleHeldCycle
  split
  case h_1 h _ =>
    obtain ⟨w, m, r, ds, p, l, e⟩ := handleArrival_shape h s
    rw [e]; rfl
  all_goals rfl

@[simp] theorem settle_power (s : State) : (settle s).power = s.power := by
  obtain ⟨ds, m, n, e⟩ := settle_shape s
  rw [e]; rfl

theorem sealAll_power (s : State) : (sealAll s).power = s.power := by
  obtain ⟨w, m, r, e⟩ := sealAll_shape s
  rw [e]; rfl

/-- The scan ends in RUNNING or POWERDOWN (R159). -/
theorem endScan_op (s : State) :
    (endScan s).power.op = if s.power.pfail then .powerdown else .running := by
  unfold endScan
  dsimp only
  rw [handleHeldCycle_power]
  split
  · rw [sealAll_power]; rfl
  · rfl

/-! ### The obligation -/

theorem exec_asleep_unframed {c : Instr} {s t : State} (hc : isReset c = false)
    (hf : ∀ bytes, c ≠ .badCommandFrame bytes) (r : Asleep s) (h : exec c s = .next t) :
    Asleep t ∨ t.power.op ≠ .starting := by
  cases c
  case por | rstAsserted => cases hc
  case badCommandFrame bytes => exact absurd rfl (hf bytes)
  all_goals injection h with h; subst h
  case dieResetTimeout d =>
    rcases dieResetTimesOut_cases d s with h | h
    · rw [h]; exact .inl r
    · rw [h]; exact .inr OpState.noConfusion
  case scanEnd =>
    split
    · rw [settle_power, endScan_op]
      exact .inr (by split <;> exact OpState.noConfusion)
    · exact .inl r
  all_goals refine .inl ?_
  case rstReleased =>
    split
    · exact r.releaseRst.settle
    · exact r
  case pfailAsserted | pfailReleased =>
    rw [if_neg (by rw [r.op]; exact OpState.noConfusion)]
    exact r.setPower rfl rfl
  case flushFallingEdge => rw [r.sealAll_eq]; exact r
  case hostRead => exact (r.arrive _).settle
  case hostWrite => exact r.arrive _
  case hostCycleAbandoned => exact r.abandonCycle
  case hostCycleEnd => exact r.endCycle
  case commitDelayExpiry => simpa [openAge, r.entries] using r
  case longStall =>
    split
    · split
      · exact r
      · exact r.elapse _
    · exact r
  case heldWritePresented => simpa [presentHeldWrite, r.op] using r
  case flushDrain => simpa [reportDrain, drained, r.boundary] using r
  case laneTake | relocationTake => rw [if_neg (by simp [r.op])]; exact r
  case eraseStart => rw [if_neg (by simp [eraseMayStart, r.op])]; exact r
  case laneReadLineResult d =>
    split
    · have ended := r.endOperation d
      exact Asleep.settle (by simpa [laneTests, ended.lane d] using ended)
    · exact r
  case laneProgramLineResult d ok =>
    have ended (op) := (r.endOperation d).endProgram op ok
    split
    · exact Asleep.settle (by simpa [laneProgrammed, (ended _).lane d] using ended _)
    · exact r
  case countResult d ok =>
    have ended (op) := (r.endOperation d).endProgram op ok
    split
    · exact Asleep.settle (by simpa [countEnds, (ended _).slot d] using ended _)
    · exact r
  case eraseRetireResult d ok =>
    have ended (op) := (r.endOperation d).endProgram op ok
    split
    · exact Asleep.settle (by simpa [slotRetireEnds, (ended _).slot d] using ended _)
    · exact r
  case readTagResult d =>
    split
    · exact ((r.endOperation d).scanTag _ _ _).settle
    · exact r
  case spareReport | claimResult | copyReadLineResult | copyProgramLineResult | sealResult
    | sourceRetireResult | targetRetireResult => simpa [r.engine] using r
  case eraseSectorResult d ok => simpa [r.slot d] using r
  case releaseProgramResult | releaseRetireResult => simpa [r.release] using r
  case hostReadLineResult =>
    split
    · split
      · exact ((r.endOperation _).portReadResult _).settle
      · exact r
    · exact r
  case pauseAnswer =>
    split
    · exact r
    · exact (r.pauseAnswered _ _).settle
  case progressIntervalReached =>
    split
    · exact r
    · split
      · exact (r.elapse _).settle
      · exact r
  case operationTimeout =>
    split
    · exact r
    · exact r.operationTimesOut _
  case pauseTimeout =>
    split
    · exact r
    · exact r.pauseTimesOut _
  case dieReadyAfterReset | dieReadyAfterTimeout | dieReadyAfterPauseTimeout
    | dieReadyAfterAbandon => exact r.dieReady _ _
  case status => exact r.setLink _
  case readCounters | readFault => exact r.unlessStarting _ _
  all_goals exact r.unlessRefused _ _

theorem exec_startingQuiet {c : Instr} {s t : State} (hs : StartingQuiet s)
    (h : exec c s = .next t) : StartingQuiet t := by
  rw [startingQuiet_iff] at hs ⊢
  intro hop
  cases hc : isReset c with
  | true =>
    rcases exec_reset hc h with ⟨-, rfl⟩ | ⟨-, rfl⟩ <;>
      exact ⟨rfl, rfl, rfl, rfl, rfl, rfl, rfl, rfl, rfl, rfl⟩
  | false =>
    have r := hs ((exec_keeps hc h).op hop)
    have unframed {c : Instr} (hc : isReset c = false) (hf : ∀ bytes, c ≠ .badCommandFrame bytes)
        (h : exec c s = .next t) : Asleep t :=
      (exec_asleep_unframed hc hf r h).resolve_right fun hn => hn hop
    by_cases hf : ∃ bytes, c = .badCommandFrame bytes
    · obtain ⟨bytes, rfl⟩ := hf
      rcases badFrame_cases h with ⟨code, command, rfl⟩ | rfl | ⟨c, -, hframe, hrun⟩
      · exact r.setLink _
      · exact r
      · obtain ⟨-, -, hreset, hbad⟩ := commandParts_plain hframe
        exact unframed hreset hbad hrun
    · exact unframed hc (fun bytes hb => hf ⟨bytes, hb⟩) h

/-- Settles O7: in STARTING the blocks that work are the port, the dies, the scanner and the link, and a
command that lets another one work has ended STARTING. -/
theorem stepKeepsStartingQuiet : Obligations.StepKeepsStartingQuiet := by
  intro s t hs h
  refine step_keeps (fun s q hs => { hs with }) (fun c s t hs h => exec_startingQuiet hs h)
    (fun s hs => ?_) hs h
  rw [startingQuiet_iff] at hs ⊢
  exact fun hop => (hs ((elapse_keeps .status 1 s).op hop)).elapse 1

end Sys2Proof.Machine
end

section
/-!
PROOFS. The shared operations: records and counters (R174, R176), sealing and the table of relocation
requests (R7, R78), the overlay's newest byte (R20), the copy's next line (R85).
-/

namespace Sys2Proof.Machine

open Sys2Proof

/-! ### Records and counters -/

/-- The link after a record (R174). -/
def Link.recorded (b : RecordBody) (l : Link) : Link :=
  if l.faults.length < faultQueueSize then
    { l with faults := l.faults ++ [⟨l.sequence, b⟩], sequence := l.sequence + 1 }
  else
    { l with
      overflow := if l.overflow = 255 then 255 else l.overflow + 1
      sequence := l.sequence + 1 }

/-- A record is a change of the link's block alone, whatever the other blocks hold. -/
theorem record_eq (b : RecordBody) (s : State) : record b s = s.setLink (s.link.recorded b) := by
  unfold record Link.recorded
  split <;> rfl

theorem Link.recorded_of_room {l : Link} (b : RecordBody) (h : l.faults.length < 16) :
    l.recorded b = { l with
      faults := l.faults ++ [⟨l.sequence, b⟩], sequence := l.sequence + 1 } := if_pos h

theorem Counters.value_add (c : Counters) (k k' : CounterName) (n : Nat) :
    (c.add k n).value k' = if k' = k then satAdd (c.value k) n else c.value k' := by
  cases k <;> cases k' <;> rfl

/-- Settles O17: the two branches of a record, and each counter by the saturating sum. -/
theorem recordsAndCounters : Obligations.RecordsAndCounters := by
  refine fun s => ⟨fun b hroom => ?room, fun b hfull => ?full, fun k n => ?count⟩
  case room => rw [record_eq, Link.recorded_of_room b hroom]; rfl
  case full =>
    refine ⟨if s.link.overflow = 255 then 255 else s.link.overflow + 1, ?_, if_neg ?_⟩
    · have := s.link.overflow.isLt
      split <;> bv_omega
    · exact Nat.not_lt.mpr hfull
  case count =>
    refine ⟨s.link.counters.add k n, rfl, ?_, fun k' hk => ?_⟩
    · rw [Counters.value_add, if_pos rfl, satAdd_toNat]
    · rw [Counters.value_add, if_neg hk]

/-! ### Sealing and relocation requests -/

/-- In an orderly buffer the act of sealing finds its own entry and changes it alone (R7). -/
theorem sealEntry_of_mem {s : State} (hw : WmbOrderly s.wmb) {e : Entry} (he : e ∈ s.wmb.entries)
    (hopen : e.isOpen = true) :
    let sealed : State := { s with wmb := { s.wmb with
      entries := s.wmb.entries.map fun x =>
        if x = e then { e with stage := .sealed s.wmb.sealCounter } else x
      sealCounter := s.wmb.sealCounter + 1 } }
    sealEntry e.openOrder s =
      if s.power.op ≠ .failed ∧ (mapEntry s e.sector).binding = none ∧
          (mapEntry s e.sector).releasing = false then
        requestReloc e.sector .backing sealed
      else sealed := by
  have found : s.wmb.entries.find? (fun x => x.openOrder == e.openOrder && x.isOpen) = some e := by
    cases hfind : s.wmb.entries.find? fun x => x.openOrder == e.openOrder && x.isOpen with
    | none => simpa [hopen] using List.find?_eq_none.mp hfind e he
    | some x =>
      have meets := List.find?_some hfind
      simp only [Bool.and_eq_true, beq_iff_eq] at meets
      rw [hw.eq_of_openOrder (List.mem_of_find?_eq_some hfind) he meets.1]
  have only_e : (s.wmb.entries.map fun x =>
        if x.openOrder = e.openOrder ∧ x.isOpen then { x with stage := .sealed s.wmb.sealCounter }
        else x) =
      s.wmb.entries.map fun x =>
        if x = e then { e with stage := .sealed s.wmb.sealCounter } else x := by
    refine List.map_congr_left fun x hx => ?_
    by_cases hxe : x = e
    · simp [hxe, hopen]
    · simp [hxe, hw.openOrder_eq_iff hx he]
  unfold sealEntry
  rw [found]
  simp only [only_e]
  rfl

/-- Settles O16: the entry sealed is told by its open order, and a request to queue a sector is read
off the table row by row. -/
theorem sealingQueuesItsSector : Obligations.SealingQueuesItsSector := by
  refine ⟨fun s e hw he hopen => sealEntry_of_mem hw he hopen, ?_⟩
  intro l s e after
  refine ⟨fun h => ⟨?_, ?_, ?_⟩, fun h => ?waiting, fun h r => ?_, fun t b h => ⟨?_, ?_, ?_⟩⟩
  case waiting =>
    rcases h with h | h <;> refine ⟨?_, ?_, ?_⟩ <;>
      simp only [requestReloc, show (mapEntry s l).reloc = _ from h] <;> rfl
  all_goals simp only [requestReloc, show (mapEntry s l).reloc = _ from h] <;> rfl

/-! ### The newest byte -/

/-- The byte that the newest entry of a line in a list holds at a position. -/
def newestByte (line : LineNo) (i : Nat) (es : List Entry) : Option Byte :=
  es.foldl (fun b e => if e.line = line then (heldByte e.held i).or b else b) none

theorem foldl_newest_of_none {line : LineNo} {i : Nat} {es : List Entry}
    (h : ∀ e ∈ es, e.line = line → heldByte e.held i = none) (b : Option Byte) :
    es.foldl (fun b e => if e.line = line then (heldByte e.held i).or b else b) b = b := by
  induction es generalizing b with
  | nil => rfl
  | cons e rest ih =>
    rw [List.foldl_cons, ih fun x hx => h x (List.mem_cons_of_mem _ hx)]
    by_cases hline : e.line = line
    · simp [hline, h e List.mem_cons_self hline]
    · simp [hline]

theorem newestByte_of_none {line : LineNo} {i : Nat} {es : List Entry}
    (h : ∀ e ∈ es, e.line = line → heldByte e.held i = none) : newestByte line i es = none :=
  foldl_newest_of_none h none

/-- Where open orders rise, an entry's byte is the newest where no entry after it holds one. -/
theorem newestByte_of_newest {line : LineNo} {i : Nat} {es : List Entry}
    (rising : (es.map (·.openOrder)).Pairwise (· < ·)) {e : Entry} (he : e ∈ es) {b : Byte}
    (hline : e.line = line) (hb : heldByte e.held i = some b)
    (newest : ∀ x ∈ es, x.line = line → e.openOrder < x.openOrder → heldByte x.held i = none) :
    newestByte line i es = some b := by
  obtain ⟨before, after, rfl⟩ := List.append_of_mem he
  rw [List.pairwise_map, List.pairwise_append, List.pairwise_cons] at rising
  obtain ⟨-, ⟨e_lt_after, -⟩, -⟩ := rising
  unfold newestByte
  rw [List.foldl_append, List.foldl_cons, foldl_newest_of_none fun x hx hxl =>
    newest x (by simp [hx]) hxl (e_lt_after x hx)]
  simp [hline, hb]

/-- Settles O18: the overlay is the newest byte of the line among the entries, whose open orders
rise. -/
theorem overlayIsNewestByte : Obligations.OverlayIsNewestByte :=
  fun _ _ _ hw => ⟨fun _ he _ hline hb newest => newestByte_of_newest hw.rising he hline hb newest,
    newestByte_of_none⟩

/-! ### The copy -/

/-- Folded entries laid over a line leave the newest folded byte, or the line's own (R85). -/
theorem lineByte_layFolded (s : State) (line : LineNo) (start : LineData) {i : Nat} (hi : i < 32) :
    lineByte (layFolded s line start) i =
      (newestByte line i (foldedList s)).getD (lineByte start i) := by
  unfold layFolded newestByte
  induction foldedList s using List.reverseRecOn with
  | nil => rfl
  | append_singleton es e ih =>
    rw [List.filter_append, List.foldl_append, List.foldl_append, List.foldl_cons, List.foldl_nil]
    by_cases hline : e.line = line
    · simp only [hline, List.filter_cons, beq_self_eq_true, if_true, List.filter_nil,
        List.foldl_cons, List.foldl_nil, lineByte_layOver _ _ hi, ih]
      cases heldByte e.held i <;> rfl
    · simp [hline, ih]

theorem layFolded_of_no_entry {s : State} {line : LineNo} {start : LineData}
    (h : ((foldedList s).any fun e => e.line == line) = false) : layFolded s line start = start := by
  have empty : ((foldedList s).filter fun e => e.line == line) = [] :=
    List.filter_eq_nil_iff.mpr fun e he => by simpa using List.any_eq_false.mp h e he
  rw [layFolded, empty]
  rfl

/-- The lowest index of a list of all indices that meets a condition. -/
theorem find?_finRange_of_first {n : Nat} {p : Fin n → Bool} {i : Fin n} (hi : p i = true)
    (first : ∀ x < i, p x = false) : (List.finRange n).find? p = some i := by
  refine List.find?_eq_some_iff_getElem.mpr ⟨hi, i.val, by simp, by simp, fun k hk => ?_⟩
  simpa using first ⟨k, hk.trans i.isLt⟩ hk

theorem nextWritten_of_first {s : State} {l : Sector} {pos : Nat} {q : Pos} (hle : pos ≤ q.val)
    (written : layFolded s (lineAt l q) blankLine ≠ blankLine)
    (first : ∀ x : Pos, pos ≤ x.val → x < q → layFolded s (lineAt l x) blankLine = blankLine) :
    nextWritten s l pos = some q := by
  refine find?_finRange_of_first ?_ fun x hx => ?_
  · have any : ((foldedList s).any fun e => e.line == lineAt l q) = true := by
      by_contra hnone
      exact written (layFolded_of_no_entry (Bool.eq_false_iff.mpr hnone))
    simp only [any, hle, decide_true, Bool.and_self, Bool.true_and, bne_iff_ne]
    exact written
  · by_cases hpos : pos ≤ x.val
    · simp [first x hpos hx]
    · simp [hpos]

theorem nextWritten_of_blank {s : State} {l : Sector} {pos : Nat}
    (blank : ∀ x : Pos, pos ≤ x.val → layFolded s (lineAt l x) blankLine = blankLine) :
    nextWritten s l pos = none := by
  refine List.find?_eq_none.mpr fun x _ => ?_
  by_cases hpos : pos ≤ x.val
  · simp [blank x hpos]
  · simp [hpos]

theorem copyFrom_of_source {j : Job} {p : Phys} (h : j.source = some p) (t : Phys) (g : Gen)
    (pos : Pos) (s : State) :
    copyFrom j t g pos.val s =
      issue .relocation (.readLine p pos) (setEngine (.copying j t g pos) s) := by
  simp only [copyFrom, dif_pos pos.isLt, h]

theorem copyFrom_of_next {j : Job} (h : j.source = none) (t : Phys) (g : Gen) {pos : Nat}
    (hpos : pos < 2048) {s : State} {q : Pos} (next : nextWritten s j.sector pos = some q) :
    copyFrom j t g pos s = issueCopy j t g q (layFolded s (lineAt j.sector q) blankLine) s := by
  simp only [copyFrom, dif_pos hpos, h, next]

theorem copyFrom_of_no_next {j : Job} (h : j.source = none) (t : Phys) (g : Gen) {pos : Nat}
    (hpos : pos < 2048) {s : State} (next : nextWritten s j.sector pos = none) :
    copyFrom j t g pos s = issueSeal j t g s := by
  simp only [copyFrom, dif_pos hpos, h, next]

theorem copyFrom_of_end {pos : Nat} (hpos : 2048 ≤ pos) (j : Job) (t : Phys) (g : Gen) (s : State) :
    copyFrom j t g pos s = issueSeal j t g s := by
  rw [copyFrom, dif_neg (Nat.not_lt.mpr hpos)]

/-- Settles O23: a source line by its position, the next line without a source as the first that is
not blank, the SEAL program past the last; and each byte of a line laid over is the newest folded. -/
theorem copyTakesNextLine : Obligations.CopyTakesNextLine := by
  intro j t g s
  refine ⟨fun pos p h => copyFrom_of_source h t g pos s, fun pos q hnone hle written first => ?next,
    fun pos hend => ?seals, fun line start i hi hw => ⟨fun e he b hline hb newest => ?newest,
      fun none => ?start⟩⟩
  case next =>
    exact copyFrom_of_next hnone t g (hle.trans_lt q.isLt) (nextWritten_of_first hle written first)
  case seals =>
    by_cases hpos : 2048 ≤ pos
    · exact copyFrom_of_end hpos j t g s
    · obtain ⟨hnone, blank⟩ := hend.resolve_left hpos
      exact copyFrom_of_no_next hnone t g (Nat.not_le.mp hpos) (nextWritten_of_blank blank)
  case newest =>
    have rising : ((foldedList s).map (·.openOrder)).Pairwise (· < ·) :=
      hw.rising.sublist (List.filter_sublist.map _)
    rw [lineByte_layFolded s line start hi, newestByte_of_newest rising he hline hb newest]
    rfl
  case start =>
    rw [lineByte_layFolded s line start hi, newestByte_of_none none]
    rfl

end Sys2Proof.Machine
end

section
/-!
PROOFS. The passing of time and what its limits bring (R8, R119, R122, R143): the held cycle and its
count, the dies' times, the expiry of a commit delay.
-/

namespace Sys2Proof.Machine

open Sys2Proof

/-! ### The held cycle -/

theorem heldCycle_iff (s : State) (h : HeldCycle) : heldCycle s = some h ↔
    (∃ ask, s.host.port = .reading (.cycle h) ask) ∨
    (∃ ask, s.host.port = .reading (.abandoned (some h)) ask) ∨
    s.host.port = .writing h ∨ s.host.port = .holding h := by
  unfold heldCycle
  split <;> simp_all

/-- A port with its held cycle changed holds the changed one. -/
theorem heldCycle_of_mapHeld {s t : State} {f : HeldCycle → HeldCycle}
    (h : t.host.port = s.host.port.mapHeld f) : heldCycle t = (heldCycle s).map f := by
  unfold heldCycle
  rw [h]
  cases s.host.port with
  | reading who ask => cases who <;> rfl
  | _ => rfl

theorem Port.mapHeld_of_none {s : State} (h : heldCycle s = none) (f : HeldCycle → HeldCycle) :
    s.host.port.mapHeld f = s.host.port := by
  unfold heldCycle at h
  split at h <;> simp_all [Port.mapHeld]

/-- Changing the held cycle is replacing it by what the change makes of it. -/
theorem Port.mapHeld_of_held {s : State} {h : HeldCycle} (hs : heldCycle s = some h)
    (f : HeldCycle → HeldCycle) : s.host.port.mapHeld f = s.host.port.mapHeld fun _ => f h := by
  rcases (heldCycle_iff s h).mp hs with ⟨ask, e⟩ | ⟨ask, e⟩ | e | e <;> simp [e, Port.mapHeld]

theorem Port.mapHeld_self {s : State} {h : HeldCycle} (hs : heldCycle s = some h) :
    (s.host.port.mapHeld fun _ => h) = s.host.port := by
  rcases (heldCycle_iff s h).mp hs with ⟨ask, e⟩ | ⟨ask, e⟩ | e | e <;> simp [e, Port.mapHeld]

theorem Port.mapHeld_mapHeld (p : Port) (f g : HeldCycle → HeldCycle) :
    (p.mapHeld f).mapHeld g = p.mapHeld (g ∘ f) := by
  cases p with
  | reading who ask => cases who <;> simp [Port.mapHeld]
  | _ => rfl

/-! ### LONG STALLS -/

theorem countStall_of_none {s : State} (h : heldCycle s = none) : countStall s = s := by
  simp only [countStall, h]

/-- A held cycle is counted where its stall has reached the threshold and it is not yet (R143). -/
theorem countStall_of_held {s : State} {h : HeldCycle} (hs : heldCycle s = some h) :
    let due := h.counted = false ∧ s.host.threshold.toNat ≤ h.stall
    countStall s = { s with
      host := { s.host with
        port := s.host.port.mapHeld fun _ => { h with counted := h.counted || decide due } }
      link := if due then (countUp .longStalls 1 s).link else s.link } := by
  intro due
  by_cases hdue : due
  · have counts : (!h.counted && decide (s.host.threshold.toNat ≤ h.stall)) = true := by
      simpa using hdue
    simp only [countStall, hs, counts, if_pos, hdue, Port.mapHeld_of_held hs, decide_true,
      Bool.or_true]
    rfl
  · have waits : ¬ (!h.counted && decide (s.host.threshold.toNat ≤ h.stall)) = true := by
      simpa [due] using hdue
    simp only [countStall, hs, if_neg waits, hdue, decide_false, Bool.or_false,
      Port.mapHeld_self hs, if_false]

/-! ### Time -/

theorem heldCycle_advance (dt : Nat) (s : State) :
    heldCycle (advance dt s) = (heldCycle s).map fun h => { h with stall := h.stall + dt } :=
  heldCycle_of_mapHeld rfl

theorem advance_host (dt : Nat) (s : State) :
    (advance dt s).host = { s.host with
      port := s.host.port.mapHeld fun h => { h with stall := h.stall + dt } } := rfl

theorem elapse_of_none {s : State} (h : heldCycle s = none) (dt : Nat) :
    (elapse dt s).host = s.host ∧ (elapse dt s).link = s.link := by
  have none : heldCycle (advance dt s) = none := by rw [heldCycle_advance, h]; rfl
  rw [elapse, countStall_of_none none]
  refine ⟨?_, rfl⟩
  rw [advance_host, Port.mapHeld_of_none h]

/-- Time passes for the held cycle, and LONG STALLS counts it once its stall reaches the threshold
(R143). -/
theorem elapse_of_held {s : State} {h : HeldCycle} (hs : heldCycle s = some h) (dt : Nat) :
    let reached := s.host.threshold.toNat ≤ h.stall + dt
    (elapse dt s).host = { s.host with port := s.host.port.mapHeld fun _ =>
        { h with stall := h.stall + dt, counted := h.counted || decide reached } } ∧
      (elapse dt s).link =
        if h.counted = false ∧ reached then (countUp .longStalls 1 s).link else s.link := by
  intro reached
  have later : heldCycle (advance dt s) = some { h with stall := h.stall + dt } := by
    rw [heldCycle_advance, hs]; rfl
  rw [elapse, countStall_of_held later]
  refine ⟨?_, rfl⟩
  simp only [advance_host, Port.mapHeld_mapHeld]
  have counted : (h.counted || decide (h.counted = false ∧ reached)) =
      (h.counted || decide reached) := by
    cases h.counted <;> simp
  exact congrArg (fun b => { s.host with port := s.host.port.mapHeld fun _ =>
    { h with stall := h.stall + dt, counted := b } }) counted

theorem elapse_blocks (dt : Nat) (s : State) :
    elapse dt s = { s with
      wmb := { s.wmb with entries := (elapse dt s).wmb.entries }
      dies := (elapse dt s).dies, host := (elapse dt s).host, link := (elapse dt s).link
      now := s.now + dt } := by
  obtain ⟨h, l, e⟩ := countStall_shape (advance dt s)
  rw [elapse, e]
  rfl

theorem elapse_entries (dt : Nat) (s : State) :
    (elapse dt s).wmb.entries = s.wmb.entries.map (Entry.elapse dt) := by
  obtain ⟨h, l, e⟩ := countStall_shape (advance dt s)
  rw [elapse, e]
  rfl

theorem Entry.elapse_of_open {e : Entry} {age : Nat} (h : e.stage = .opened age) (dt : Nat) :
    (e.elapse dt).stage = .opened (age + dt) := by
  simp only [Entry.elapse, h]

theorem Entry.elapse_of_closed {e : Entry} (h : e.isOpen = false) (dt : Nat) : e.elapse dt = e := by
  unfold Entry.elapse
  split
  next age hstage => simp [Entry.isOpen, hstage] at h
  all_goals rfl

/-- Time changes nothing of an entry but an OPEN one's age (R8). -/
theorem Entry.elapse_stage (dt : Nat) (e : Entry) : e.elapse dt = { e with stage := (e.elapse dt).stage } := by
  unfold Entry.elapse
  split <;> rfl

theorem Die.elapse_reported (op : OpState) (dt : Nat) (die : Die) :
    (die.elapse op dt).reported = true ↔ die.reported = true ∧ (dt = 0 ∨ die.state = .idle) := by
  simp [Die.elapse]

theorem DieState.elapse_of_failed {st : DieState} (dt : Nat)
    (h : ∀ cause time answered, st ≠ .resetting cause time answered) :
    st.elapse .failed dt = st := by
  cases st with
  | resetting cause time answered => exact absurd rfl (h cause time answered)
  | _ => rfl

/-! ### The expiry of a commit delay -/

theorem openAge_of_mem {s : State} (hw : WmbOrderly s.wmb) {e : Entry} {age : Nat}
    (he : e ∈ s.wmb.entries) (hstage : e.stage = .opened age) :
    openAge s e.line = some (e.openOrder, age) := by
  have hopen : e.isOpen = true := by simp [Entry.isOpen, hstage]
  unfold openAge
  cases hfind : s.wmb.entries.findSome? _ with
  | none => simpa [hstage] using List.findSome?_eq_none_iff.mp hfind e he
  | some found =>
    obtain ⟨x, hx, hgives⟩ := List.exists_of_findSome?_eq_some hfind
    split at hgives
    · split at hgives
      next age' hstage' hline =>
        obtain rfl := hw.eq_of_open_line hx he (by simp [Entry.isOpen, hstage']) hopen hline
        obtain rfl : age' = age := by rw [hstage] at hstage'; injection hstage' with h; exact h.symm
        exact hgives.symm
      next => cases hgives
    all_goals cases hgives

theorem openAge_of_no_open {s : State} {line : LineNo}
    (h : ∀ e ∈ s.wmb.entries, e.isOpen = true → e.line ≠ line) : openAge s line = none := by
  refine List.findSome?_eq_none_iff.mpr fun e he => ?_
  split
  next age hstage => exact if_neg (h e he (by simp [Entry.isOpen, hstage]))
  all_goals rfl

/-! ### The obligation -/

/-- Settles O20: ages by the entries, times by the dies' states, the stall by the way the port holds its
cycle; and the two commands by the time that is lacking. -/
theorem timeCountsToItsLimits : Obligations.TimeCountsToItsLimits := by
  refine ⟨fun dt s => ⟨elapse_blocks dt s, ?ages, fun d => ?dies, fun h => elapse_of_none h dt,
    fun h hs => ?held⟩, heldCycle_iff, fun s => ⟨fun h hs => ⟨fun hc => ?counted, fun hc => ?counts⟩,
    fun hs => ?noCycle, fun e age hw he hstage => ?expires, fun line hnone => ?noEntry⟩⟩
  case ages =>
    rw [elapse_entries, List.forall₂_map_right_iff, List.forall₂_same]
    exact fun e _ => ⟨Entry.elapse_stage dt e, fun age h => Entry.elapse_of_open h dt,
      fun h => by rw [Entry.elapse_of_closed h]⟩
  case dies =>
    intro a b
    have hb : b = a.elapse s.power.op dt := elapse_get dt s d
    clear_value b
    subst hb
    refine ⟨rfl, rfl, Die.elapse_reported _ _ _, ?_, ?_, ?_, fun hop hreset => ?_,
      fun hop => ⟨?_, ?_, ?_, ?_, ?_⟩⟩
    case refine_4 => rw [Die.elapse_state, hop, DieState.elapse_of_failed dt hreset]
    all_goals
      intros
      simp [DieState.elapse, *]
  case held =>
    obtain ⟨host, link⟩ := elapse_of_held hs dt
    refine ⟨fun ask e => ?_, fun ask e => ?_, fun e => ?_, fun e => ?_, link⟩
    all_goals rw [host, e]; rfl
  case counted => simp only [exec, execLongStall, hs, hc, if_true]
  case counts =>
    intro t
    obtain ⟨host, link⟩ := elapse_of_held hs (s.host.threshold.toNat - h.stall)
    have reached : s.host.threshold.toNat ≤ h.stall + (s.host.threshold.toNat - h.stall) := by omega
    refine ⟨?_, ?_, ?_⟩
    · simp only [exec, execLongStall, hs, hc]; rfl
    · rw [link, if_pos ⟨hc, reached⟩]
    · have stall : h.stall + (s.host.threshold.toNat - h.stall) =
          max h.stall s.host.threshold.toNat := by omega
      rw [heldCycle_of_mapHeld (congrArg HostPort.port host), hs, stall]
      simp
  case noCycle => simp only [exec, execLongStall, hs]
  case expires => simp only [exec, execCommitDelayExpiry, openAge_of_mem hw he hstage]
  case noEntry => simp only [exec, execCommitDelayExpiry, openAge_of_no_open hnone]

end Sys2Proof.Machine
end

section
/-!
PROOFS. What a scheduler does with what waits (R117, R123, R125, R128): the die a choice leaves, and
what an abandonment cuts on the medium.
-/

namespace Sys2Proof.Machine

open Sys2Proof

/-! ### The first of a list -/

theorem firstOf_find? {p : Request → Bool} {ws : List Request} {r : Request} {rest : List Request}
    (h : firstOf p ws r rest) : ws.find? p = some r := by
  obtain ⟨before, after, rfl, -, hr, hbefore⟩ := h
  exact List.find?_eq_some_iff_append.mpr ⟨hr, before, after, rfl, by simpa using hbefore⟩

theorem firstOf_erase {p : Request → Bool} {ws : List Request} {r : Request} {rest : List Request}
    (h : firstOf p ws r rest) : ws.erase r = rest := by
  obtain ⟨before, after, rfl, rfl, hr, hbefore⟩ := h
  have new : r ∉ before := fun hmem => by simp [hbefore r hmem] at hr
  rw [List.erase_append_right _ new, List.erase_cons_head]

theorem find?_of_any_false {p : Request → Bool} {ws : List Request} (h : ws.any p = false) :
    ws.find? p = none :=
  List.find?_eq_none.mpr fun x hx => by simpa using List.any_eq_false.mp h x hx

/-! ### The die that a scheduler's choice leaves -/

/-- A die with a request taken as its work (R114). -/
def Die.takes (die : Die) (r : Request) : Die :=
  { die with state := takenState r, waiting := die.waiting.erase r }

/-- A die with a read taken in a hold (R125). -/
def Die.readsInHold (die : Die) (run : EraseRun) (r : Request) : Die :=
  { die with state := .heldReading run r false 0, waiting := die.waiting.erase r, reported := false }

/-- A die with another state, a standing report ended. -/
def Die.enters (die : Die) (st : DieState) : Die := { die with state := st, reported := false }

/-- What its scheduler makes of a die (R117, R123, R125, R128). -/
def Die.settled (die : Die) : Die :=
  if die.offline = true then die
  else
    match die.state with
    | .idle =>
      match arbiterChoice die.waiting with
      | some r => die.takes r
      | none => { die with reported := true }
    | .held run abandon =>
      if abandon then die.enters (.resetting .abandonment 0 false)
      else
        match holdChoice die.waiting with
        | some r => die.readsInHold run r
        | none => die.enters (.erasing { run with progress := 0 })
    | .erasing run =>
      if die.waiting.any Request.isHostRead ∧ progressInterval ≤ run.progress ∧
          run.pauses < pauseBudget then
        die.enters (.pausing run.phys (some run) false 0)
      else die
    | .reading _ _ | .programming _ _ | .pausing _ _ _ _ | .heldReading _ _ _ _
    | .resetting _ _ _ => die

/-- Whether a scheduler ends a hold by the DIE RESET of a waiting abandonment, which cuts its erase
(R128). -/
def Die.abandons (die : Die) (run : EraseRun) : Prop :=
  die.state = .held run true ∧ die.offline = false

theorem dieReset_get_same (d : DieId) (cause : ResetCause) (s : State) :
    (dieReset d cause s).dies.get d = (s.dies.get d).enters (.resetting cause 0 false) := by
  obtain ⟨m, n, h⟩ := cutInProgress_shape d s
  rw [dieReset, setDieState_get_same, h]
  rfl

theorem settleDie_get {s : State} (hop : s.power.op ≠ .failed) (d : DieId) :
    (settleDie d s).dies.get d = (s.dies.get d).settled := by
  unfold settleDie Die.settled
  by_cases hoff : (s.dies.get d).offline = true
  · simp only [hoff, or_true, if_true]
  · rw [if_neg hoff]
    dsimp only
    rw [if_neg (not_or.mpr ⟨hop, hoff⟩)]
    cases hst : (s.dies.get d).state with
    | idle =>
      cases arbiterChoice (s.dies.get d).waiting <;> exact setDie_get_same _ _ _
    | held run abandon =>
      cases abandon
      · cases holdChoice (s.dies.get d).waiting <;> exact setDie_get_same _ _ _
      · exact dieReset_get_same _ _ _
    | erasing run =>
      dsimp only
      split
      · exact setDie_get_same _ _ _
      · rfl
    | _ => rfl

section OneDie

variable {die : Die} (awake : die.offline = false)

include awake

theorem Die.settled_take (hst : die.state = .idle) {r : Request}
    (hc : arbiterChoice die.waiting = some r) : die.settled = die.takes r := by
  simp only [Die.settled, awake, hst, hc]; rfl

theorem Die.settled_report (hst : die.state = .idle) (hc : arbiterChoice die.waiting = none) :
    die.settled = { die with reported := true } := by
  simp only [Die.settled, awake, hst, hc]; rfl

theorem Die.settled_readInHold {run : EraseRun} (hst : die.state = .held run false) {r : Request}
    (hc : holdChoice die.waiting = some r) : die.settled = die.readsInHold run r := by
  simp only [Die.settled, awake, hst, hc]; rfl

theorem Die.settled_resume {run : EraseRun} (hst : die.state = .held run false)
    (hc : holdChoice die.waiting = none) :
    die.settled = die.enters (.erasing { run with progress := 0 }) := by
  simp only [Die.settled, awake, hst, hc]; rfl

theorem Die.settled_abandon {run : EraseRun} (hst : die.state = .held run true) :
    die.settled = die.enters (.resetting .abandonment 0 false) := by
  simp only [Die.settled, awake, hst]; rfl

theorem Die.settled_erasing {run : EraseRun} (hst : die.state = .erasing run) :
    die.settled =
      if die.waiting.any Request.isHostRead ∧ progressInterval ≤ run.progress ∧
          run.pauses < pauseBudget then
        die.enters (.pausing run.phys (some run) false 0)
      else die := by
  simp only [Die.settled, awake, hst]; rfl

end OneDie

/-- A die that is not IDLE, held or erasing has no choice to make. -/
theorem Die.settled_busy {die : Die} (hidle : die.state ≠ .idle)
    (hne : ∀ run, die.state ≠ .erasing run ∧ ∀ abandon, die.state ≠ .held run abandon) :
    die.settled = die := by
  unfold Die.settled
  split
  · rfl
  · split
    next h => exact absurd h hidle
    next run abandon h => exact absurd h ((hne run).2 abandon)
    next run h => exact absurd h (hne run).1
    all_goals rfl

theorem settleDie_power (d : DieId) (s : State) : (settleDie d s).power = s.power := by
  obtain ⟨ds, m, n, h⟩ := settleDie_shape d s
  rw [h]
  rfl

/-- Each scheduler acts on its own die (R114). -/
theorem settle_get {s : State} (hop : s.power.op ≠ .failed) (d : DieId) :
    (settle s).dies.get d = (s.dies.get d).settled := by
  have hop' : (settleDie .die0 s).power.op ≠ .failed := by rwa [settleDie_power]
  cases d with
  | die0 => rw [settle, settleDie_get_other _ (by decide), settleDie_get hop]
  | die1 => rw [settle, settleDie_get hop', settleDie_get_other _ (by decide)]

/-- A scheduler's choice cuts nothing unless it ends a hold by an abandonment. -/
theorem settleDie_of_not_abandons {s : State} {d : DieId}
    (h : ∀ run, ¬ (s.dies.get d).abandons run) :
    settleDie d s = s.setDies (settleDie d s).dies := by
  unfold settleDie
  dsimp only
  split
  · rfl
  next hserves =>
    split
    · split <;> rfl
    next run abandon hst =>
      have stays : abandon = false := by
        cases abandon
        · rfl
        · exact absurd ⟨hst, by simpa using fun hoff => hserves (.inr hoff)⟩ (h run)
      subst stays
      simp only [Bool.false_eq_true, if_false]
      split <;> rfl
    · split <;> rfl
    all_goals rfl

theorem settleDie_of_abandons {s : State} {d : DieId} {run : EraseRun} (hop : s.power.op ≠ .failed)
    (h : (s.dies.get d).abandons run) :
    settleDie d s = ((s.setDies (settleDie d s).dies).setMedium
      (s.medium.cutErase s.draws run.phys)).setDraws (s.draws + 1) := by
  obtain ⟨hst, hoff⟩ := h
  have resets : settleDie d s = dieReset d .abandonment s := by
    simp [settleDie, hop, hoff, hst]
  have cut : cutInProgress d s =
      (s.setMedium (s.medium.cutErase s.draws run.phys)).setDraws (s.draws + 1) := by
    simp only [cutInProgress, hst]
  rw [resets, dieReset, cut]
  rfl

/-- In FAILED, and at an offline die, a scheduler does nothing (R129). -/
theorem settle_get_of_offline {s : State} {d : DieId} (h : (s.dies.get d).offline = true) :
    (settle s).dies.get d = s.dies.get d := by
  by_cases hop : s.power.op = .failed
  · rw [settle_failed hop]
  · rw [settle_get hop, Die.settled, if_pos h]

theorem settleDie_blocks (s : State) : settleDie .die0 s =
    ((s.setDies (settleDie .die0 s).dies).setMedium (settleDie .die0 s).medium).setDraws
      (settleDie .die0 s).draws := by
  obtain ⟨ds, m, n, e⟩ := settleDie_shape .die0 s
  rw [e]
  rfl

theorem setDies_after {s t u : State} {ds es : PerDie Die} {m : Memory} {n : Nat}
    (h : t = ((s.setDies ds).setMedium m).setDraws n) (h' : u = t.setDies es) :
    u = { s with dies := es, medium := m, draws := n } := by
  simp only [h', h, State.setDies, State.setMedium, State.setDraws]

theorem cut_after {s t u : State} {ds es : PerDie Die} {m m' : Memory} {n n' : Nat}
    (h : t = ((s.setDies ds).setMedium m).setDraws n)
    (h' : u = ((t.setDies es).setMedium m').setDraws n') :
    u = { s with dies := es, medium := m', draws := n' } := by
  simp only [h', h, State.setDies, State.setMedium, State.setDraws]

/-- Of the medium the two schedulers change what abandonments cut, first at die 0 and then at die 1. -/
theorem settle_cuts {s : State} (hop : s.power.op ≠ .failed) :
    let cuts (d : DieId) (run : EraseRun) : Prop := (s.dies.get d).abandons run
    ∃ (m : Memory) (n : Nat),
      ((∀ run, ¬ cuts .die0 run) → m = s.medium ∧ n = s.draws) ∧
      (∀ run, cuts .die0 run → m = s.medium.cutErase s.draws run.phys ∧ n = s.draws + 1) ∧
      ((∀ run, ¬ cuts .die1 run) →
        settle s = { s with dies := (settle s).dies, medium := m, draws := n }) ∧
      (∀ run, cuts .die1 run → settle s = { s with
        dies := (settle s).dies, medium := m.cutErase n run.phys, draws := n + 1 }) := by
  intro cuts
  have hop' : (settleDie .die0 s).power.op ≠ .failed := by rwa [settleDie_power]
  have die1 : (settleDie .die0 s).dies.get .die1 = s.dies.get .die1 :=
    settleDie_get_other s (by decide)
  refine ⟨(settleDie .die0 s).medium, (settleDie .die0 s).draws, fun h => ?_, fun run h => ?_,
    fun h => ?_, fun run h => ?_⟩
  · rw [settleDie_of_not_abandons h]; exact ⟨rfl, rfl⟩
  · rw [settleDie_of_abandons hop h]; exact ⟨rfl, rfl⟩
  · exact setDies_after (settleDie_blocks s)
      (settleDie_of_not_abandons (by rw [die1]; exact h))
  · exact cut_after (settleDie_blocks s)
      (settleDie_of_abandons hop' (by rw [die1]; exact h))

/-! ### The obligation -/

/-- Settles O19: each scheduler's die by the state it is in, and the medium by the abandonments that
end a hold. -/
theorem schedulersChooseInOrder : Obligations.SchedulersChooseInOrder := by
  refine ⟨fun s => ⟨settle_failed, settle_cuts, fun d => settle_get_of_offline⟩, ?_⟩
  intro s d hop awake die becomes
  have settles {x : Die} (h : die.settled = x) : becomes x := (settle_get hop d).trans h
  refine ⟨fun hst => ?idle, fun run hst => ?held,
    fun run hst => settles (Die.settled_abandon awake hst), fun run hst => ?erasing,
    fun hne hidle => settles (Die.settled_busy hidle hne), fun r => ?taken⟩
  case idle =>
    have takes {r : Request} {rest : List Request} {p : Request → Bool}
        (h : firstOf p die.waiting r rest) (hc : arbiterChoice die.waiting = some r) :
        becomes { die with state := takenState r, waiting := rest } :=
      settles (by rw [Die.settled_take awake hst hc, ← firstOf_erase h]; rfl)
    refine ⟨fun r rest h => takes h ?_, fun noHost => ⟨fun r rest h => takes h ?_,
      fun noInternal => ⟨fun r rest h => takes h ?_,
        fun noStart => settles (Die.settled_report awake hst ?_)⟩⟩⟩
    · simp [arbiterChoice, firstOf_find? h]
    · simp [arbiterChoice, find?_of_any_false noHost, firstOf_find? h]
    · simp [arbiterChoice, find?_of_any_false noHost, find?_of_any_false noInternal,
        firstOf_find? h]
    · simp [arbiterChoice, find?_of_any_false noHost, find?_of_any_false noInternal,
        find?_of_any_false noStart]
  case held =>
    have reads {r : Request} {rest : List Request} {p : Request → Bool}
        (h : firstOf p die.waiting r rest) (hc : holdChoice die.waiting = some r) :
        becomes { die with
          state := .heldReading run r false 0, waiting := rest, reported := false } :=
      settles (by rw [Die.settled_readInHold awake hst hc, ← firstOf_erase h]; rfl)
    refine ⟨fun r rest h => reads h ?_, fun noHost => ⟨fun r rest h => reads h ?_,
      fun noRead => settles (Die.settled_resume awake hst ?_)⟩⟩
    · simp [holdChoice, firstOf_find? h]
    · simp [holdChoice, find?_of_any_false noHost, firstOf_find? h]
    · rw [holdChoice, find?_of_any_false noHost, find?_of_any_false noRead]
      rfl
  case erasing =>
    refine ⟨fun host progress budget => settles ?_, fun h => settles ?_⟩
    · rw [Die.settled_erasing awake hst, if_pos ⟨host, progress, budget⟩]; rfl
    · rw [Die.settled_erasing awake hst, if_neg]
      rintro ⟨host, progress, budget⟩
      simp only [progressInterval, pauseBudget] at progress budget
      rcases h with h | h | h
      · rw [h] at host
        cases host
      · omega
      · omega
  case taken =>
    refine ⟨fun p pos h => ?_, fun p h => ?_, fun p pos data h => ?_, fun p c h => ?_, fun p h => ?_⟩
    all_goals simp only [takenState, h]

end Sys2Proof.Machine
end

section
/-!
PROOFS. The target choice in its order (R81) and the abandonment (R91).
-/

namespace Sys2Proof.Machine

open Sys2Proof

/-! ### The target choice -/

theorem noSpareCanCome_iff (s : State) : noSpareCanCome s = true ↔
    s.acct.eraseQueue = [] ∧ ∀ c ∈ s.acct.recs, c.2.membership ≠ .erasing := by
  simp [noSpareCanCome]

theorem setFieldTarget_eq (l : Sector) (t : Option Phys) (s : State) :
    ∃ pending, setFieldTarget l t s =
        setMapEntry l { mapEntry s l with reloc := .inFlight t pending } s ∧
      ∀ old b, (mapEntry s l).reloc = .inFlight old b → pending = b := by
  unfold setFieldTarget
  dsimp only
  split
  next old b h => exact ⟨b, rfl, fun _ _ h' => by rw [h] at h'; injection h'⟩
  all_goals exact ⟨false, rfl, fun _ _ h' => by simp_all⟩

theorem spareFor_of_front {r : RelocReason} {s : State} {p : Phys} {rest : List Phys}
    (hpool : s.acct.pool = p :: rest) (h : r = .failure ∨ rest ≠ []) : spareFor r s = some p := by
  unfold spareFor
  rw [hpool]
  cases rest with
  | nil => rw [h.resolve_right (by simp)]
  | cons q more => cases r <;> rfl

theorem spareFor_of_short {r : RelocReason} {s : State}
    (h : s.acct.pool = [] ∨ ((∃ p, s.acct.pool = [p]) ∧ r ≠ .failure)) : spareFor r s = none := by
  unfold spareFor
  rcases h with h | ⟨⟨p, h⟩, hr⟩
  · rw [h]
  · rw [h]
    cases r with
    | failure => exact absurd rfl hr
    | _ => rfl

theorem chooseTarget_of_spare {j : Job} {s : State} {g : Gen} (hg : s.reloc.generation = some g)
    (hlast : g ≠ lastGeneration) {t : Phys} (ht : spareFor j.reason s = some t) :
    chooseTarget j s = claimTarget j t g s := by
  simp only [chooseTarget, hg, if_neg hlast, ht]

theorem chooseTarget_of_no_spare {j : Job} {s : State} {g : Gen} (hg : s.reloc.generation = some g)
    (hlast : g ≠ lastGeneration) (ht : spareFor j.reason s = none) :
    chooseTarget j s = if noSpareCanCome s then abandon j (some .spares) s
      else setEngine (.awaitingSpare j) s := by
  simp only [chooseTarget, hg, if_neg hlast, ht]

/-- What a target taken from the front of the pool leaves (R35, R81). -/
theorem claimTarget_eq {j : Job} {p : Phys} {g : Gen} {s : State} {rest : List Phys}
    (hpool : s.acct.pool = p :: rest) :
    ∃ pending, (∀ old b, (mapEntry s j.sector).reloc = .inFlight old b → pending = b) ∧
      claimTarget j p g s = { s with
        map := Table.store MapEntry.unbacked s.map j.sector.val
          { mapEntry s j.sector with reloc := .inFlight (some p) pending }
        acct := { s.acct with
          recs := Table.put s.acct.recs p.val ⟨.target, knownCount s p⟩, pool := rest }
        reloc := { s.reloc with engine := .claiming j p g false, generation := some (g + 1) }
        dies := (issue .relocation (.programTag p (.claim j.sector g)) s).dies } := by
  have front : s.acct.pool.erase p = rest := by rw [hpool, List.erase_cons_head]
  obtain ⟨pending, field, pending_eq⟩ := setFieldTarget_eq j.sector (some p)
    (moveTo .target p (s.setAcct { s.acct with pool := rest }))
  refine ⟨pending, pending_eq, ?_⟩
  rw [claimTarget, front]
  dsimp only
  rw [field]
  rfl

/-- Settles O21: the generation first, then the front of the pool where the class may take it, then
whether a spare can still come. -/
theorem targetChoiceInOrder : Obligations.TargetChoiceInOrder := by
  refine fun j s g hg => ⟨fun hlast => ?last, fun hlast => ⟨fun p rest hpool hclass => ?spare,
    fun hshort => ⟨fun hnone => ?given, fun hsome => ?waits⟩⟩⟩
  case last => simp only [chooseTarget, hg]; exact if_pos hlast
  case spare =>
    intro t
    obtain ⟨pending, hpending, claimed⟩ := claimTarget_eq (j := j) (g := g) hpool
    have ht : t = claimTarget j p g s :=
      chooseTarget_of_spare hg hlast (spareFor_of_front hpool hclass)
    have hrecs : t.acct.recs = Table.put s.acct.recs p.val ⟨.target, knownCount s p⟩ := by
      rw [ht, claimed]
    have hmap : t.map = Table.store MapEntry.unbacked s.map j.sector.val
        { mapEntry s j.sector with reloc := .inFlight (some p) pending } := by rw [ht, claimed]
    have hrec : Table.find t.acct.recs p.val = some ⟨.target, knownCount s p⟩ := by
      rw [hrecs, Table.find_put_same]
    refine ⟨?_, ?_, ?_, fun q hq => ?_, fun l hl => ?_, fun old b hold => ?_⟩
    · rw [hmap, hrecs, ht, claimed]
    · rw [membershipOf, hrec]; rfl
    · rw [knownCount, hrec]; rfl
    · rw [membershipOf, hrecs, Table.find_put_other _ _ fun h => hq (Fin.ext h)]; rfl
    · rw [mapEntry, hmap, Table.read_store_other _ _ _ fun h => hl (Fin.ext h)]; rfl
    · rw [mapEntry, hmap, Table.read_store_same, hpending old b hold]
  case given =>
    rw [chooseTarget_of_no_spare hg hlast (spareFor_of_short hshort),
      if_pos ((noSpareCanCome_iff s).mpr hnone)]
  case waits =>
    rw [chooseTarget_of_no_spare hg hlast (spareFor_of_short hshort), if_neg]
    · rfl
    · rw [noSpareCanCome_iff]
      rintro ⟨hqueue, hrecs⟩
      rcases hsome with h | ⟨c, hc, he⟩
      · exact h hqueue
      · exact hrecs c hc he

/-! ### The abandonment -/

theorem refuseHeldWrite_of_writing {s : State} {h : HeldCycle} (hs : s.host.port = .writing h) :
    refuseHeldWrite s = refuseDegraded h.cycle s := by
  simp only [refuseHeldWrite, hs]

theorem refuseHeldWrite_of_not_writing {s : State} (hs : ∀ h, s.host.port ≠ .writing h) :
    refuseHeldWrite s = s := by
  unfold refuseHeldWrite
  split
  next h hp => exact absurd hp (hs h)
  all_goals rfl

/-- DEGRADED is set once: a later request with GENERATION changes its reason alone (R39). -/
theorem requestDegraded_again {s : State} (h : s.power.degraded ≠ none) (why : DegradedReason)
    (lost : Nat) : requestDegraded why lost s = s.setPower { s.power with
      degraded := if why = .generation then some .generation else s.power.degraded } := by
  unfold requestDegraded
  cases hd : s.power.degraded with
  | none => exact absurd hd h
  | some old =>
    cases why with
    | spares =>
      simp only [reduceCtorEq, if_false]
      rw [← hd]
      rfl
    | generation =>
      cases old with
      | spares => rfl
      | generation =>
        simp only [if_true, ← hd]
        rfl

theorem requestDegraded_first {s : State} (h : s.power.degraded = none) (why : DegradedReason)
    (lost : Nat) : requestDegraded why lost s = refuseHeldWrite (record (.degradedEntered lost why)
      (s.setPower { s.power with degraded := some why })) := by
  simp only [requestDegraded, h]

theorem requestDegraded_shape (why : DegradedReason) (lost : Nat) (s : State) :
    ∃ p h l, requestDegraded why lost s = ((s.setPower p).setHost h).setLink l := by
  by_cases hd : s.power.degraded = none
  · obtain ⟨h, l, e⟩ := refuseHeldWrite_shape (record (.degradedEntered lost why)
      (s.setPower { s.power with degraded := some why }))
    rw [requestDegraded_first hd, e, record_eq]
    exact ⟨_, h, l, rfl⟩
  · exact ⟨(requestDegraded why lost s).power, s.host, s.link, by
      rw [requestDegraded_again hd]; rfl⟩

/-- The entries an abandonment discards (R91). -/
def lostEntries (l : Sector) (s : State) : List Entry :=
  if foldedList s = [] then s.wmb.entries.filter fun e => e.isSealed && e.sector == l
  else foldedList s

theorem filter_abandonDiscards (l : Sector) (s : State) :
    s.wmb.entries.filter (abandonDiscards s l) = lostEntries l s := by
  unfold lostEntries
  by_cases h : foldedList s = []
  · rw [if_pos h]
    exact List.filter_congr fun e _ => by simp [abandonDiscards, h]
  · rw [if_neg h]
    exact List.filter_congr fun e _ => by simp [abandonDiscards, h]

theorem filter_keeps (p : Entry → Bool) (es : List Entry) :
    es.filter (fun e => !p e) = es.filter fun e => e ∉ es.filter p := by
  refine List.filter_congr fun e he => ?_
  cases hp : p e <;> simp [he, hp]

/-- The state of an abandonment once its lines are discarded and recorded (R91 items 1 and 2). -/
def afterLoss (l : Sector) (s : State) : State :=
  record (.relocationLoss l (lostEntries l s).length) (countUp .linesLost (lostEntries l s).length
    (setEntries (s.wmb.entries.filter fun x => x ∉ lostEntries l s) s))

theorem afterLoss_eq (l : Sector) (s : State) : afterLoss l s = { s with
    wmb := { s.wmb with entries := s.wmb.entries.filter fun x => x ∉ lostEntries l s }
    link := (record (.relocationLoss l (lostEntries l s).length)
      (countUp .linesLost (lostEntries l s).length s)).link } := by
  rw [afterLoss, record_eq, record_eq]
  rfl

/-- Whether SEALED entries are left of an UNBACKED sector that is not releasing, which must ask again
(R91 item 3). -/
def asksAgain (l : Sector) (s : State) : Bool :=
  (mapEntry s l).binding.isNone && !(mapEntry s l).releasing &&
    (afterLoss l s).wmb.entries.any fun x => x.isSealed && x.sector == l

/-- The state of an abandonment once the sector's relocation field is set (R91 item 3). -/
def afterField (l : Sector) (s : State) : State :=
  if asksAgain l s then
    setMapEntry l { mapEntry s l with reloc := .queued .backing } ((afterLoss l s).setReloc
      { s.reloc with queue := s.reloc.queue ++ [⟨l, .backing⟩] })
  else setMapEntry l { mapEntry s l with reloc := .absent } (afterLoss l s)

theorem discardWhere_abandonDiscards (l : Sector) (s : State) :
    discardWhere (abandonDiscards s l) s =
      (countUp .linesLost (lostEntries l s).length
        (setEntries (s.wmb.entries.filter fun x => x ∉ lostEntries l s) s),
        (lostEntries l s).length) := by
  have entries := filter_keeps (abandonDiscards s l) s.wmb.entries
  have number : s.wmb.entries.countP (abandonDiscards s l) = (lostEntries l s).length := by
    rw [List.countP_eq_length_filter, filter_abandonDiscards]
  rw [filter_abandonDiscards] at entries
  simp only [discardWhere, freeWhere, number, entries]

theorem mapEntry_afterLoss (l x : Sector) (s : State) : mapEntry (afterLoss l s) x = mapEntry s x := by
  rw [afterLoss_eq]
  rfl

theorem afterField_eq_requeued (l : Sector) (s : State) : afterField l s =
    if (mapEntry (afterLoss l s) l).binding.isNone && !(mapEntry (afterLoss l s) l).releasing &&
        (afterLoss l s).wmb.entries.any fun x => x.isSealed && x.sector == l then
      setMapEntry l { mapEntry (afterLoss l s) l with reloc := .queued .backing }
        ((afterLoss l s).setReloc { (afterLoss l s).reloc with
          queue := (afterLoss l s).reloc.queue ++ [⟨l, .backing⟩] })
    else setMapEntry l { mapEntry (afterLoss l s) l with reloc := .absent } (afterLoss l s) := by
  have reloc : (afterLoss l s).reloc = s.reloc := by rw [afterLoss_eq]
  simp only [mapEntry_afterLoss, reloc]
  rfl

theorem abandon_none (j : Job) (s : State) :
    abandon j none s = setEngine .idle (afterField j.sector s) := by
  simp only [abandon, discardWhere_abandonDiscards, afterField_eq_requeued]
  rfl

theorem abandon_some (j : Job) (r : DegradedReason) (s : State) :
    abandon j (some r) s = setEngine .idle
      (requestDegraded r (lostEntries j.sector s).length (afterField j.sector s)) := by
  simp only [abandon, discardWhere_abandonDiscards, afterField_eq_requeued]
  rfl

/-- The link after the record of a relocation's loss (R91 item 2). -/
def linkTold (l : Sector) (s : State) : Link :=
  (record (.relocationLoss l (lostEntries l s).length)
    (countUp .linesLost (lostEntries l s).length s)).link

theorem afterField_blocks (l : Sector) (s : State) : afterField l s = { s with
    wmb := { s.wmb with entries := s.wmb.entries.filter fun x => x ∉ lostEntries l s }
    map := (afterField l s).map
    reloc := { s.reloc with queue := (afterField l s).reloc.queue }
    link := linkTold l s } := by
  unfold afterField
  rw [afterLoss_eq]
  split <;> rfl

theorem abandon_shape (j : Job) (why : Option DegradedReason) (s : State) :
    ∃ p h l, abandon j why s =
      setEngine .idle ((((afterField j.sector s).setPower p).setHost h).setLink l) := by
  cases why with
  | none => exact ⟨(afterField j.sector s).power, (afterField j.sector s).host,
      (afterField j.sector s).link, abandon_none j s⟩
  | some r =>
    obtain ⟨p, h, l, e⟩ := requestDegraded_shape r (lostEntries j.sector s).length
      (afterField j.sector s)
    rw [abandon_some, e]
    exact ⟨p, h, l, rfl⟩

theorem asksAgain_iff (l : Sector) (s : State) : asksAgain l s = true ↔
    (mapEntry s l).binding = none ∧ (mapEntry s l).releasing = false ∧
      ∃ x ∈ (afterLoss l s).wmb.entries, x.isSealed = true ∧ x.sector = l := by
  simp [asksAgain, and_assoc]

theorem afterField_of_again {l : Sector} {s : State} (h : asksAgain l s = true) :
    afterField l s = setMapEntry l { mapEntry s l with reloc := .queued .backing }
      ((afterLoss l s).setReloc { s.reloc with queue := s.reloc.queue ++ [⟨l, .backing⟩] }) :=
  if_pos h

theorem afterField_of_not_again {l : Sector} {s : State} (h : ¬ asksAgain l s = true) :
    afterField l s = setMapEntry l { mapEntry s l with reloc := .absent } (afterLoss l s) := if_neg h

theorem mapEntry_afterField_other {l x : Sector} (h : x ≠ l) (s : State) :
    mapEntry (afterField l s) x = mapEntry s x := by
  unfold afterField
  split <;> rw [mapEntry_setMapEntry_other _ _ h] <;> exact mapEntry_afterLoss l x s

/-- Settles O22: what is lost, the sector's field, and DEGRADED by whether it is set already. -/
theorem abandonmentGivesUp : Obligations.AbandonmentGivesUp := by
  intro j why s t lost told e again
  obtain ⟨p, h, l, ht⟩ : ∃ p h l, t = setEngine .idle _ := abandon_shape j why s
  have entries : t.wmb = (afterLoss j.sector s).wmb := by
    rw [ht, afterField_blocks, afterLoss_eq]; rfl
  have again_iff : asksAgain j.sector s = true ↔ again := by
    rw [asksAgain_iff, ← entries]
  have field (x : Sector) : mapEntry t x = mapEntry (afterField j.sector s) x := by rw [ht]; rfl
  have queue : t.reloc.queue = (afterField j.sector s).reloc.queue := by rw [ht]; rfl
  refine ⟨?_, ?_, fun x hx => ?_, fun hagain => ?_, fun hagain => ?_, fun r hwhy hclear => ?_,
    fun hnot => ?_⟩
  · rw [ht, afterField_blocks]; rfl
  · rw [entries, afterLoss_eq]; rfl
  · rw [field, mapEntry_afterField_other hx]
  · rw [field, queue, afterField_of_again (again_iff.mpr hagain), mapEntry_setMapEntry_same]
    exact ⟨rfl, rfl⟩
  · rw [field, queue, afterField_of_not_again (mt again_iff.mp hagain), mapEntry_setMapEntry_same]
    exact ⟨rfl, by rw [setMapEntry, afterLoss_eq]; rfl⟩
  · have first := requestDegraded_first (s := afterField j.sector s)
      (by rw [afterField_blocks]; exact hclear) r (lostEntries j.sector s).length
    have asked : t = abandon j why s := rfl
    rw [hwhy, abandon_some, first] at asked
    have blocks : ∀ u, u = record (.degradedEntered (lostEntries j.sector s).length r)
        ((afterField j.sector s).setPower
          { (afterField j.sector s).power with degraded := some r }) →
        u.power = { s.power with degraded := some r } ∧ u.host = s.host ∧
          u.link = (record (.degradedEntered lost.length r) told).link := by
      rintro u rfl
      rw [record_eq, record_eq, afterField_blocks]
      exact ⟨rfl, rfl, rfl⟩
    generalize record _ _ = u at asked blocks
    obtain ⟨hpower, hhost, hlink⟩ := blocks u rfl
    refine ⟨?_, fun h hport => ?_, fun hport => ?_⟩
    · obtain ⟨_, _, e⟩ := refuseHeldWrite_shape u
      rw [asked, e]
      exact hpower
    · rw [asked, refuseHeldWrite_of_writing (hhost ▸ hport), refuseDegraded]
      rw [record_eq, record_eq _ (record _ told), ← hlink, ← hhost]
      exact ⟨rfl, rfl⟩
    · rw [asked, refuseHeldWrite_of_not_writing (hhost ▸ hport)]
      exact ⟨hhost, hlink⟩
  · cases why with
    | none =>
      have given : t = _ := abandon_none j s
      rw [given, afterField_blocks]
      exact ⟨rfl, rfl, rfl⟩
    | some r =>
      have set : (afterField j.sector s).power.degraded ≠ none := by
        rw [afterField_blocks]
        exact hnot.resolve_left (by simp)
      have given : t = _ := abandon_some j r s
      rw [given, requestDegraded_again set, afterField_blocks]
      exact ⟨rfl, rfl, by simp only [Option.some.injEq]; rfl⟩

end Sys2Proof.Machine
end

section
/-!
PROOFS. A cycle's arrival at the host port (R131 to R142): what the arrival finds of the cycle before it,
and what each operating state, region mode and check makes of a read and of a write.
-/

namespace Sys2Proof.Machine

open Sys2Proof

/-! ### Changes that the sealing of entries passes by -/

/-- A change of blocks that the buffer's operations neither read nor write. -/
structure Aside (u : State → State) : Prop where
  power : ∀ s, (u s).power = s.power
  wmb : ∀ s, (u s).wmb = s.wmb
  map : ∀ s, (u s).map = s.map
  reloc : ∀ s, (u s).reloc = s.reloc
  setWmb : ∀ s x, (u s).setWmb x = u (s.setWmb x)
  setMap : ∀ s x, (u s).setMap x = u (s.setMap x)
  setReloc : ∀ s x, (u s).setReloc x = u (s.setReloc x)

theorem aside_setHost (h : HostPort) : Aside (State.setHost · h) :=
  ⟨fun _ => rfl, fun _ => rfl, fun _ => rfl, fun _ => rfl, fun _ _ => rfl, fun _ _ => rfl,
    fun _ _ => rfl⟩

theorem aside_setPort (p : Port) : Aside (setPort p) :=
  ⟨fun _ => rfl, fun _ => rfl, fun _ => rfl, fun _ => rfl, fun _ _ => rfl, fun _ _ => rfl,
    fun _ _ => rfl⟩

section Aside

variable {u : State → State} (hu : Aside u)

include hu

theorem Aside.mapEntry (s : State) (l : Sector) : mapEntry (u s) l = mapEntry s l := by
  rw [Machine.mapEntry, hu.map, Machine.mapEntry]

theorem Aside.setMapEntry (l : Sector) (e : MapEntry) (s : State) :
    setMapEntry l e (u s) = u (setMapEntry l e s) := by
  rw [Machine.setMapEntry, hu.map, hu.setMap, Machine.setMapEntry]

theorem Aside.requestReloc (l : Sector) (reason : RelocReason) (s : State) :
    requestReloc l reason (u s) = u (requestReloc l reason s) := by
  simp only [Machine.requestReloc, hu.mapEntry, hu.reloc, hu.setReloc, hu.setMapEntry]
  split <;> rfl

theorem Aside.sealEntry (id : Nat) (s : State) : sealEntry id (u s) = u (sealEntry id s) := by
  simp only [Machine.sealEntry, hu.wmb]
  split
  · rfl
  · simp only [hu.power, hu.mapEntry, hu.setWmb, hu.requestReloc]
    split <;> rfl

theorem Aside.sealOldest (s : State) : sealOldest (u s) = u (sealOldest s) := by
  simp only [Machine.sealOldest, hu.wmb]
  split
  · exact hu.sealEntry _ _
  · rfl

theorem Aside.sealWhere (p : Entry → Bool) (s : State) : sealWhere p (u s) = u (sealWhere p s) := by
  simp only [Machine.sealWhere, hu.wmb]
  induction (s.wmb.entries.filter fun e => e.isOpen && p e).map (·.openOrder) generalizing s with
  | nil => rfl
  | cons id rest ih => rw [List.foldl_cons, hu.sealEntry, ih, List.foldl_cons]

theorem Aside.openEntry (line : LineNo) (bytes : List (Option Byte)) (s : State) :
    openEntry line bytes (u s) = u (openEntry line bytes s) := by
  have after : afterOpening line bytes (u s) = u (afterOpening line bytes s) := by
    have opened (w : Wmb) : { u s with wmb := w } = u (s.setWmb w) := hu.setWmb s w
    simp only [afterOpening, hu.wmb, opened, hu.sealEntry]
    split <;> rfl
  rw [openEntry_eq, openEntry_eq, after, hu.wmb, hu.sealOldest]
  split <;> rfl

theorem Aside.mergeEntry (e : Entry) (bytes : List (Option Byte)) (s : State) :
    mergeEntry e bytes (u s) = u (mergeEntry e bytes s) := by
  simp only [Machine.mergeEntry, updateEntry, setEntries, hu.wmb, hu.setWmb, hu.sealEntry]
  split <;> rfl

theorem Aside.presentWrite (line : LineNo) (bytes : List (Option Byte)) (s : State) :
    presentWrite line bytes (u s) = (presentWrite line bytes s).map u := by
  simp only [Machine.presentWrite, hu.wmb, hu.mergeEntry, hu.openEntry]
  split
  · rfl
  · split <;> rfl

end Aside

/-! ### The cycle before -/

/-- An arrival leaves of the cycle before it at most an abandoned read in READING. -/
theorem free_of_takes {s : State} (h : portTakes s) :
    endCycle (abandonCycle s) = setPort .idle s := by
  have idle {p : Port} (hp : s.host.port = p) : setPort p s = s := by rw [setPort, ← hp]; rfl
  cases hp : s.host.port with
  | reading who ask => exact absurd hp (h who ask)
  | idle => simp only [abandonCycle, endCycle, hp, idle hp]
  | completed c w => simp only [abandonCycle, endCycle, hp]
  | _ =>
    simp only [abandonCycle, endCycle, hp]
    rfl

theorem free_of_reading {s : State} {who : ReadFor} {ask : ReadAsk}
    (h : s.host.port = .reading who ask) :
    endCycle (abandonCycle s) = setPort (.reading (.abandoned none) ask) s := by
  cases who <;> simp only [abandonCycle, endCycle, h] <;> rfl

theorem arrive_of_rst {s : State} (h : s.power.rst = true) (c : HostCycle) :
    arrive c s = setPort (.inReset c) s := by
  rw [arrive, if_pos h]
  by_cases ht : portTakes s
  · rw [free_of_takes ht]; rfl
  · simp only [portTakes, not_forall, not_not] at ht
    obtain ⟨who, ask, hp⟩ := ht
    rw [free_of_reading hp]; rfl

theorem arrive_of_reading {s : State} {who : ReadFor} {ask : ReadAsk} (hrst : s.power.rst = false)
    (h : s.host.port = .reading who ask) (c : HostCycle) :
    arrive c s = setPort (.reading (.abandoned (some ⟨c, 0, false⟩)) ask) s := by
  rw [arrive, free_of_reading h]
  simp only [hrst]
  rfl

theorem arrive_of_takes {s : State} (hrst : s.power.rst = false) (h : portTakes s) (c : HostCycle) :
    arrive c s = handleArrival (newCycle c) (setPort .idle s) := by
  rw [arrive, free_of_takes h]
  simp only [hrst]
  rfl

/-! ### Handling a cycle -/

theorem handleArrival_starting {s : State} (h : s.power.op = .starting) (x : HeldCycle) :
    handleArrival x s = setPort (.holding x) s := by
  simp [handleArrival, h]

/-- A cycle with neither lane completes at once (R132, log 9). -/
theorem handleArrival_noLane {s : State} (h : s.power.op ≠ .starting) {x : HeldCycle}
    (hlow : x.cycle.low = false) (hhigh : x.cycle.high = false) :
    handleArrival x s = setPort (.completed x.cycle
      (if x.cycle.kind = .read then some 0xFFFF#16 else none)) s := by
  cases hk : x.cycle.kind <;> simp [handleArrival, h, hlow, hhigh, hk]

section Lanes

variable {s : State} {x : HeldCycle} (lane : x.cycle.low = true ∨ x.cycle.high = true)

include lane

theorem some_lane : ¬ (s.power.op ≠ .starting ∧ x.cycle.low = false ∧ x.cycle.high = false) := by
  rintro ⟨-, hlow, hhigh⟩
  simp [hlow, hhigh] at lane

theorem handleArrival_failed_read (h : s.power.op = .failed) (hk : x.cycle.kind = .read) :
    handleArrival x s = completeRead x.cycle 0xFFFF#16 s := by
  rw [handleArrival, if_neg (some_lane lane)]
  simp only [h, hk]

theorem handleArrival_failed_write (h : s.power.op = .failed) {data : HostWord}
    (hk : x.cycle.kind = .write data) : handleArrival x s = refuseWrite x.cycle s := by
  rw [handleArrival, if_neg (some_lane lane)]
  simp only [h, hk]

theorem handleArrival_read (h : s.power.op = .running ∨ s.power.op = .powerdown)
    (hk : x.cycle.kind = .read) : handleArrival x s = arriveRead x s := by
  rw [handleArrival, if_neg (some_lane lane)]
  rcases h with h | h <;> simp only [h, hk]

theorem handleArrival_write (h : s.power.op = .running ∨ s.power.op = .powerdown) {data : HostWord}
    (hk : x.cycle.kind = .write data) : handleArrival x s = arriveWrite x data s := by
  rw [handleArrival, if_neg (some_lane lane)]
  rcases h with h | h <;> simp only [h, hk]

end Lanes

/-! ### Reads -/

theorem arriveRead_of_noAccess {s : State} {x : HeldCycle} {i : Fin 16}
    (hgov : governing s (pageOf x.cycle.addr) = some i) (hmode : (regionAt s i).mode = .noAccess) :
    arriveRead x s =
      completeRead x.cycle 0xFFFF#16 (record (.regionRead (lineOf x.cycle.addr) i) s) := by
  simp only [arriveRead, hgov, if_pos hmode]

theorem arriveRead_of_access {s : State} {x : HeldCycle}
    (hmode : modeAt s (pageOf x.cycle.addr) ≠ .noAccess) : arriveRead x s = readPastRegion x s := by
  cases hgov : governing s (pageOf x.cycle.addr) with
  | none => simp only [arriveRead, hgov]
  | some i =>
    have access : (regionAt s i).mode ≠ .noAccess := by simpa [modeAt, hgov] using hmode
    simp only [arriveRead, hgov, if_neg access]

/-- The byte the overlay gives for a lane of a cycle, `k` being 0 for the low lane and 1 for the high. -/
def overlaid (s : State) (c : HostCycle) (k : Nat) : Option Byte :=
  overlayByte s (lineOf c.addr) (lowPosition c.addr + k)

/-- A read of an UNBACKED or releasing sector, or one the overlay covers, completes at once (R134). -/
theorem readPastRegion_of_covered {s : State} {x : HeldCycle}
    (h : (mapEntry s (sectorOf (lineOf x.cycle.addr))).binding = none ∨
      (mapEntry s (sectorOf (lineOf x.cycle.addr))).releasing = true ∨
      ((x.cycle.low = true → overlaid s x.cycle 0 ≠ none) ∧
        (x.cycle.high = true → overlaid s x.cycle 1 ≠ none))) :
    readPastRegion x s = completeRead x.cycle (readWord x.cycle
      ((overlaid s x.cycle 0).getD 0xFF#8) ((overlaid s x.cycle 1).getD 0xFF#8)) s := by
  unfold readPastRegion
  dsimp only
  split
  next b hb =>
    refine if_pos ?_
    rcases h with h | h | ⟨hlow, hhigh⟩
    · rw [h] at hb; cases hb
    · simp [h]
    · have low : (!x.cycle.low || (overlaid s x.cycle 0).isSome) = true := by
        cases hl : x.cycle.low
        · rfl
        · simpa [Option.isSome_iff_ne_none] using hlow hl
      have high : (!x.cycle.high || (overlaid s x.cycle 1).isSome) = true := by
        cases hh : x.cycle.high
        · rfl
        · simpa [Option.isSome_iff_ne_none] using hhigh hh
      have covered := Bool.and_eq_true_iff.mpr ⟨low, high⟩
      exact Bool.or_eq_true_iff.mpr (.inl covered)
  · rfl

/-- Any other read asks for the line of the bound physical sector (R134). -/
theorem readPastRegion_of_uncovered {s : State} {x : HeldCycle} {b : Binding}
    (hb : (mapEntry s (sectorOf (lineOf x.cycle.addr))).binding = some b)
    (hrel : (mapEntry s (sectorOf (lineOf x.cycle.addr))).releasing = false)
    (h : (x.cycle.low = true ∧ overlaid s x.cycle 0 = none) ∨
      (x.cycle.high = true ∧ overlaid s x.cycle 1 = none)) :
    readPastRegion x s = issue .hostPort (.readLine b.phys (posOf (lineOf x.cycle.addr)))
      (setPort (.reading (.cycle x)
        ⟨b.phys, posOf (lineOf x.cycle.addr), overlaid s x.cycle 0, overlaid s x.cycle 1⟩) s) := by
  have uncovered : ((!x.cycle.low || (overlaid s x.cycle 0).isSome) &&
      (!x.cycle.high || (overlaid s x.cycle 1).isSome)) = false := by
    rcases h with ⟨hl, ho⟩ | ⟨hl, ho⟩ <;> simp [hl, ho]
  simp only [overlaid, Nat.add_zero] at uncovered
  simp only [readPastRegion, hb, hrel, uncovered, overlaid, Nat.add_zero]
  rfl

theorem exec_hostRead (addr : WordAddr) (low high : Bool) (s : State) :
    exec (.hostRead addr low high) s = .next (settle (arrive ⟨addr, low, high, .read⟩ s)) := rfl

/-- Settles O32: an arrival by the state of the port, then by the operating state, the governing region
and the overlay. -/
theorem hostReadAnsweredAtOnce : Obligations.HostReadAnsweredAtOnce := by
  intro addr low high s c done lowByte highByte e
  have arrives (u : State) (h : arrive c s = u) :
      exec (.hostRead addr low high) s = .next (settle u) := by rw [exec_hostRead, h]
  refine ⟨fun hrst => arrives _ (arrive_of_rst hrst c),
    fun hrst who ask hp => arrives _ (arrive_of_reading hrst hp c), fun hrst htakes => ?_⟩
  have taken := arrive_of_takes hrst htakes c
  refine ⟨fun hop => arrives _ (taken.trans (handleArrival_starting (s := setPort .idle s) hop _)),
    fun hop hlow hhigh => arrives _ ?noLane, fun lane => ⟨fun hop => ?failed, fun hop => ⟨fun i hgov hmode => ?noAccess,
      fun hmode hcov => ?covered⟩⟩⟩
  case noLane =>
    rw [taken, handleArrival_noLane (s := setPort .idle s) (x := newCycle c) hop hlow hhigh]
    rfl
  case failed =>
    have failed : exec (.hostRead addr low high) s = .next (settle (done 0xFFFF s)) :=
      arrives _ (taken.trans (handleArrival_failed_read (s := setPort .idle s) (x := newCycle c) lane hop rfl))
    rw [failed, settle_failed (by exact hop)]
  case noAccess =>
    refine arrives _ ?_
    rw [taken, handleArrival_read (s := setPort .idle s) (x := newCycle c) lane hop rfl, arriveRead_of_noAccess (s := setPort .idle s) (x := newCycle c) hgov hmode, record_eq,
      record_eq]
    rfl
  case covered =>
    refine arrives _ ?_
    rw [taken, handleArrival_read (s := setPort .idle s) (x := newCycle c) lane hop rfl, arriveRead_of_access (s := setPort .idle s) (x := newCycle c) hmode,
      readPastRegion_of_covered (s := setPort .idle s) (x := newCycle c) hcov]
    rfl

/-- Settles O33: the request by the uncovered lane, and the completion by whose read the port waits
for. -/
theorem hostReadGoesToMedium : Obligations.HostReadGoesToMedium := by
  constructor
  case left =>
    intro addr low high s b line lowByte highByte hrst htakes hop hmode hb hrel huncov
    have lane : low = true ∨ high = true := huncov.imp And.left And.left
    rw [exec_hostRead, arrive_of_takes hrst htakes, handleArrival_read (s := setPort .idle s) (x := newCycle ⟨addr, low, high, .read⟩) lane hop rfl,
      arriveRead_of_access (s := setPort .idle s) (x := newCycle ⟨addr, low, high, .read⟩) hmode, readPastRegion_of_uncovered (s := setPort .idle s) (x := newCycle ⟨addr, low, high, .read⟩) hb hrel huncov]
    rfl
  case right =>
    intro s who ask r p pos hop hport hprogress hwho hread ended line
    have answers := answering_of_inProgress hop hprogress
    rw [hwho, hread] at answers
    have executed : exec .hostReadLineResult s = .next (settle (portReadResult line ended)) := by
      change execHostReadLineResult s = _
      simp only [execHostReadLineResult, hport, answers]
      rfl
    have port : ended.host.port = .reading who ask := by
      obtain ⟨ds, h⟩ := endOperation_shape (dieOf ask.phys) s
      simp only [ended, h]
      exact hport
    rw [executed]
    refine ⟨fun h hwho => ?_, fun hwho => ?_, fun h hwho => ?_⟩
    all_goals simp only [portReadResult, port, hwho]; rfl

/-! ### Writes -/

theorem arriveWrite_of_refusing {s : State} {x : HeldCycle} {i : Fin 16} (data : HostWord)
    (hgov : governing s (pageOf x.cycle.addr) = some i)
    (hmode : (regionAt s i).mode = .readOnly ∨ (regionAt s i).mode = .noAccess) :
    arriveWrite x data s =
      refuseWrite x.cycle (record (.regionWrite (lineOf x.cycle.addr) i) s) := by
  simp only [arriveWrite, hgov, if_pos hmode]

theorem arriveWrite_of_accepting {s : State} {x : HeldCycle} (data : HostWord)
    (hmode : modeAt s (pageOf x.cycle.addr) = .normal ∨
      modeAt s (pageOf x.cycle.addr) = .clearOnly) :
    arriveWrite x data s = writePastRegion x data s := by
  cases hgov : governing s (pageOf x.cycle.addr) with
  | none => simp only [arriveWrite, hgov]
  | some i =>
    have accepts : ¬ ((regionAt s i).mode = .readOnly ∨ (regionAt s i).mode = .noAccess) := by
      simp only [modeAt, hgov] at hmode
      rcases hmode with h | h <;> simp [h]
    simp only [arriveWrite, hgov, if_neg accepts]

theorem writePastRegion_of_degraded {s : State} (h : s.power.degraded ≠ none) (x : HeldCycle)
    (data : HostWord) : writePastRegion x data s = refuseDegraded x.cycle s :=
  if_pos (Option.isSome_iff_ne_none.mpr h)

theorem writePastRegion_of_powerdown {s : State} (h : s.power.degraded = none)
    (hop : s.power.op = .powerdown) (x : HeldCycle) (data : HostWord) :
    writePastRegion x data s = setPort (.writing x) s := by
  simp [writePastRegion, h, hop]

theorem writePastRegion_of_running {s : State} (h : s.power.degraded = none)
    (hop : s.power.op = .running) (x : HeldCycle) (data : HostWord) :
    writePastRegion x data s = takeOrHold x data s := by
  simp [writePastRegion, h, hop]

theorem takeOrHold_of_full {s : State} {x : HeldCycle} {data : HostWord}
    (h : presentWrite (lineOf x.cycle.addr) (writeBytes x.cycle data) s = none) :
    takeOrHold x data s = setPort (.writing x) s := by
  simp only [takeOrHold, h]

theorem takeOrHold_of_taken {s : State} {x : HeldCycle} {data : HostWord} {taken : State}
    (h : presentWrite (lineOf x.cycle.addr) (writeBytes x.cycle data) s = some taken) :
    takeOrHold x data s = countUp .hostWrites 1 (setPort (.completed x.cycle none) taken) := by
  simp only [takeOrHold, h]

/-- Settles O34: an arrival by the state of the port, then by the operating state and the checks in
their order. -/
theorem hostWriteMeetsItsChecks : Obligations.HostWriteMeetsItsChecks := by
  intro addr data low high s c outcome dropped
  have arrives (u : State) (h : arrive c s = u) : outcome = .next u := by rw [← h]; rfl
  refine ⟨fun hrst => arrives _ (arrive_of_rst hrst c),
    fun hrst who ask hp => arrives _ (arrive_of_reading hrst hp c), fun hrst htakes => ?_⟩
  have taken := arrive_of_takes hrst htakes c
  refine ⟨fun hop => arrives _ (taken.trans (handleArrival_starting (s := setPort .idle s) hop _)),
    fun hop hlow hhigh => arrives _ ?noLane,
    fun lane => ⟨fun hop => arrives _ (taken.trans (handleArrival_failed_write (s := setPort .idle s) (x := newCycle c) lane hop rfl)),
      fun hop => ⟨fun i hgov hmode => arrives _ ?refused, fun hmode => ?_⟩⟩⟩
  case noLane =>
    rw [taken, handleArrival_noLane (s := setPort .idle s) (x := newCycle c) hop hlow hhigh]
    rfl
  case refused =>
    rw [taken, handleArrival_write (s := setPort .idle s) (x := newCycle c) lane hop rfl, arriveWrite_of_refusing (s := setPort .idle s) (x := newCycle c) data hgov hmode, record_eq,
      record_eq]
    rfl
  have written : arrive c s = writePastRegion (newCycle c) data (setPort .idle s) := by
    rw [taken, handleArrival_write (s := setPort .idle s) (x := newCycle c) lane hop rfl, arriveWrite_of_accepting (s := setPort .idle s) (x := newCycle c) data hmode]
  have presented := (aside_setPort .idle).presentWrite (lineOf addr) (writeBytes c data) s
  refine ⟨fun hdeg => arrives _ ?degraded, fun hdeg hop => arrives _ ?powerdown,
    fun hdeg hop => ⟨fun hfull => arrives _ ?full, fun t htaken => arrives _ ?taken⟩⟩
  case degraded =>
    rw [written, writePastRegion_of_degraded (by exact hdeg), refuseDegraded, record_eq, record_eq]
    rfl
  case powerdown =>
    rw [written, writePastRegion_of_powerdown (by exact hdeg) (by exact hop)]
    rfl
  case full =>
    rw [written, writePastRegion_of_running (by exact hdeg) (by exact hop),
      takeOrHold_of_full (by rw [hfull] at presented; exact presented)]
    rfl
  case taken =>
    rw [written, writePastRegion_of_running (by exact hdeg) (by exact hop),
      takeOrHold_of_taken (by rw [htaken] at presented; exact presented)]
    rfl

/-! ### Release and presentation again -/

theorem presentHeldWrite_of_running {s : State} {h : HeldCycle} {data : HostWord}
    (hop : s.power.op = .running) (hport : s.host.port = .writing h)
    (hk : h.cycle.kind = .write data) : presentHeldWrite s = writePastRegion h data s := by
  simp only [presentHeldWrite, hport, hop, hk]

theorem presentHeldWrite_of_not_running {s : State} (hop : s.power.op ≠ .running) :
    presentHeldWrite s = s := by
  unfold presentHeldWrite
  split
  next h => exact absurd h hop
  · rfl

/-- HRDY is low while a cycle is held or the part is in reset (R131, R142). -/
theorem hrdy_eq_false_iff (s : State) : hrdy s = false ↔
    s.power.rst = true ∨ (∃ h, heldCycle s = some h) ∨ ∃ c, s.host.port = .inReset c := by
  unfold hrdy heldCycle
  cases s.power.rst
  · cases hp : s.host.port with
    | reading who ask =>
      cases who with
      | cycle h => simp
      | abandoned next => cases next <;> simp
    | _ => simp
  · simp

/-- Settles O35: each release by the port's state, and the held write by the checks that are left. -/
theorem heldCyclesGoOnOrEnd : Obligations.HeldCyclesGoOnOrEnd := by
  refine ⟨fun s => ⟨fun c w hp => ?completed, fun hp => ?notCompleted, fun who ask hp => ?reading,
    fun hp => ?waiting, fun hp => ?idle⟩, fun s h data hport hk => ⟨fun hop => ?notRunning,
      fun hop => ?running⟩, hrdy_eq_false_iff⟩
  case completed =>
    constructor
    · change Host.Outcome.next (endCycle s) = _
      simp only [endCycle, hp]
    · change Host.Outcome.next (abandonCycle s) = _
      simp only [abandonCycle, hp]
  case notCompleted =>
    change Host.Outcome.next (endCycle s) = _
    unfold endCycle
    split
    next c w h => exact absurd h (hp c w)
    all_goals rfl
  case reading =>
    change Host.Outcome.next (abandonCycle s) = _
    cases who <;> simp only [abandonCycle, hp]
  case waiting =>
    change Host.Outcome.next (abandonCycle s) = _
    rcases hp with ⟨h, hp | hp⟩ | ⟨c, hp⟩ <;> simp only [abandonCycle, hp]
  case idle =>
    change Host.Outcome.next (abandonCycle s) = _
    simp only [abandonCycle, hp]
  case notRunning => exact congrArg Host.Outcome.next (presentHeldWrite_of_not_running hop)
  case running =>
    have presents : exec .heldWritePresented s = .next (writePastRegion h data s) :=
      congrArg Host.Outcome.next (presentHeldWrite_of_running hop hport hk)
    rw [presents]
    refine ⟨fun hdeg => ?_, fun hdeg => ⟨fun hfull => ?_, fun t ht => ?_⟩⟩
    · rw [writePastRegion_of_degraded hdeg]
      rfl
    · rw [writePastRegion_of_running hdeg hop, takeOrHold_of_full hfull, setPort, ← hport]
      rfl
    · rw [writePastRegion_of_running hdeg hop, takeOrHold_of_taken ht]

end Sys2Proof.Machine
end

section
/-!
PROOFS. What whole, cut and failed programs and erases leave on the medium (R47, R56 to R58).
-/

namespace Sys2Proof.Machine

open Sys2Proof

/-! ### Bytes and addresses -/

theorem Memory.bytes_length (m : Memory) (a n : Nat) : (m.bytes a n).length = n := by
  simp [Memory.bytes]

theorem Memory.getElem_bytes (m : Memory) (a n i : Nat) (h : i < (m.bytes a n).length) :
    (m.bytes a n)[i] = m.byte (a + i) := by
  simp [Memory.bytes]

theorem Memory.bytes_congr {m m' : Memory} {a n : Nat} (h : ∀ i < n, m'.byte (a + i) = m.byte (a + i)) :
    m'.bytes a n = m.bytes a n :=
  List.map_congr_left fun i hi => h i (List.mem_range.mp hi)

theorem Memory.byte_of_bytes {m m' : Memory} {a n : Nat} (h : m'.bytes a n = m.bytes a n) {i : Nat}
    (hi : i < n) : m'.byte (a + i) = m.byte (a + i) := by
  rw [← m'.getElem_bytes a n i (by rwa [Memory.bytes_length]),
    ← m.getElem_bytes a n i (by rwa [Memory.bytes_length])]
  simp only [h]

theorem Memory.bytes_setBytes (m : Memory) (a : Nat) (bs : List Byte) :
    (m.setBytes a bs).bytes a bs.length = bs := by
  refine List.ext_getElem (by simp [Memory.bytes]) fun i h h' => ?_
  rw [Memory.getElem_bytes, Memory.byte_setBytes_inside _ _ _ _ h']

theorem Memory.bytes_setBytes_outside (m : Memory) {a x n : Nat} {bs : List Byte}
    (h : x + n ≤ a ∨ a + bs.length ≤ x) : (m.setBytes a bs).bytes x n = m.bytes x n :=
  Memory.bytes_congr fun i hi => Memory.byte_setBytes_outside _ _ _ _ (by omega)

theorem lineByte_bytes (m : Memory) (a n : Nat) {i : Nat} (h : i < n) :
    lineByte (m.bytes a n) i = m.byte (a + i) := by
  simp [lineByte, Memory.bytes, List.getD_eq_getElem?_getD, h]

theorem lineByte_eq_getElem {l : LineData} {i : Nat} (h : i < l.length) : lineByte l i = l[i] := by
  simp [lineByte, List.getD_eq_getElem?_getD, h]

theorem TagContents.bytes_length (c : TagContents) : c.bytes.length = c.field.length := by
  cases c <;> simp [TagContents.bytes, TagContents.body, withCheck, beBytes, TagContents.field,
    TagField.length]

theorem TagField.within (f : TagField) : f.offset + f.length ≤ 64 := by
  cases f <;> decide

/-- The five fields of a tag area lie apart. -/
theorem TagField.apart {f g : TagField} (h : f ≠ g) :
    f.offset + f.length ≤ g.offset ∨ g.offset + g.length ≤ f.offset := by
  cases f <;> cases g <;> first | exact absurd rfl h | decide

theorem fieldBytes_tag (f : TagField) (m : Memory) (p : Phys) :
    fieldBytes f (m.tag p) = m.bytes (tagAddr p + f.offset) f.length := by
  have within := f.within
  refine List.ext_getElem ?_ fun i h h' => ?_
  · simp only [fieldBytes, Memory.tag, Memory.bytes, List.length_take, List.length_drop,
      List.length_map, List.length_range]
    omega
  · simp [fieldBytes, Memory.tag, Memory.bytes, Nat.add_assoc]

theorem inSector_iff (p : Phys) (a : Nat) :
    inSector p a = true ↔ p.val * 65600 ≤ a ∧ a < p.val * 65600 + 65600 := by
  rw [inSector, Bool.and_eq_true, decide_eq_true_eq, decide_eq_true_eq]
  rfl

/-- An operation's image lies in the sector it names (R43). -/
theorem inSector_of_image {op : DieOp} {a : Nat} {want : List Byte} (h : op.image = some (a, want))
    {i : Nat} (hi : i < want.length) : inSector op.phys (a + i) = true := by
  rw [inSector_iff]
  cases op with
  | programLine p pos data =>
    obtain ⟨rfl, rfl⟩ := Prod.mk.inj (Option.some.inj h)
    have := pos.isLt
    simp only [List.length_map, List.length_range] at hi
    simp only [DieOp.phys, lineAddr, sectorSpan]
    omega
  | programTag p c =>
    obtain ⟨rfl, rfl⟩ := Prod.mk.inj (Option.some.inj h)
    have := c.field.within
    rw [TagContents.bytes_length] at hi
    simp only [DieOp.phys, tagAddr, sectorSpan]
    omega
  | _ => cases h

/-! ### Whole programs -/

theorem Memory.program_ok (m : Memory) (draw : Nat) {op : DieOp} {a : Nat} {want : List Byte}
    (h : op.image = some (a, want)) :
    m.program draw op true = (m.setBytes a (programmed (m.bytes a want.length) want),
      programmed (m.bytes a want.length) want == want) := by
  simp only [Memory.program, h, if_true]

theorem Memory.program_fail (m : Memory) (draw : Nat) {op : DieOp} {a : Nat} {want : List Byte}
    (h : op.image = some (a, want)) : m.program draw op false = (m.cutProgram draw op, false) := by
  simp only [Memory.program, h]
  rfl

theorem programmed_length (m : Memory) (a : Nat) (want : List Byte) :
    (programmed (m.bytes a want.length) want).length = want.length := by
  simp [programmed, Memory.bytes]

theorem getElem_programmed (m : Memory) (a : Nat) (want : List Byte) {i : Nat}
    (h : i < (programmed (m.bytes a want.length) want).length) :
    (programmed (m.bytes a want.length) want)[i] =
      m.byte (a + i) &&& want[i]'(programmed_length m a want ▸ h) := by
  simp [programmed, Memory.bytes]

/-! ### Cut programs -/

theorem partProgrammed_length (draw a : Nat) (old want : List Byte) :
    (partProgrammed draw a old want).length = want.length := by
  simp [partProgrammed]

/-- A cut program stores what is left of its contents, or, where no such tag field is allowed,
nothing. -/
theorem Memory.cutProgram_cases (m : Memory) (draw : Nat) {op : DieOp} {a : Nat} {want : List Byte}
    (h : op.image = some (a, want)) :
    let left := partProgrammed draw a (m.bytes a want.length) want
    m.cutProgram draw op = m ∨ m.cutProgram draw op = m.setBytes a left ∧
      ∀ p c, op = .programTag p c → tornTagAllowed c left = true := by
  cases op with
  | programLine p pos data =>
    obtain ⟨rfl, rfl⟩ := Prod.mk.inj (Option.some.inj h)
    refine .inr ⟨?_, fun p c hc => by cases hc⟩
    simp only [Memory.cutProgram, List.length_map, List.length_range]
  | programTag p c =>
    obtain ⟨rfl, rfl⟩ := Prod.mk.inj (Option.some.inj h)
    simp only [Memory.cutProgram]
    split
    next allowed => exact .inr ⟨rfl, fun p' c' hc => by cases hc; exact allowed⟩
    next => exact .inl rfl
  | _ => cases h

/-- Bits of a cut program: none is set, and none is cleared that the contents hold at 1 (R56). -/
theorem left_bits (old want kept : Byte) :
    old &&& (want ||| kept) &&& ~~~ old = 0#8 ∧
      old &&& want &&& ~~~ (old &&& (want ||| kept)) = 0#8 := by
  constructor
  all_goals
    ext i hi
    simp only [BitVec.getElem_and, BitVec.getElem_or, BitVec.getElem_not, BitVec.getElem_zero]
    cases old[i] <;> cases want[i] <;> simp

theorem unchanged_bits (old want : Byte) :
    old &&& ~~~ old = 0#8 ∧ old &&& want &&& ~~~ old = 0#8 := by
  constructor
  all_goals
    ext i hi
    simp only [BitVec.getElem_and, BitVec.getElem_not, BitVec.getElem_zero]
    cases old[i] <;> simp

theorem Memory.cutProgram_bits (m : Memory) (draw : Nat) {op : DieOp} {a : Nat} {want : List Byte}
    (himage : op.image = some (a, want)) {i : Nat} (h : i < want.length) :
    (m.cutProgram draw op).byte (a + i) &&& ~~~ m.byte (a + i) = 0#8 ∧
      m.byte (a + i) &&& want[i] &&& ~~~ (m.cutProgram draw op).byte (a + i) = 0#8 := by
  rcases m.cutProgram_cases draw himage with e | ⟨e, -⟩
  · rw [e]
    exact unchanged_bits _ _
  · have left : (m.cutProgram draw op).byte (a + i) =
        m.byte (a + i) &&& (want[i] ||| Config.keptBits draw (a + i)) := by
      rw [e, Memory.byte_setBytes_inside _ _ _ _ (by rwa [partProgrammed_length])]
      simp only [partProgrammed, List.getElem_map, List.getElem_range, lineByte_bytes _ _ _ h,
        lineByte_eq_getElem h]
    rw [left]
    exact left_bits _ _ _

theorem Memory.cutProgram_outside (m : Memory) (draw : Nat) {op : DieOp} {a : Nat}
    {want : List Byte} (himage : op.image = some (a, want)) {x : Nat}
    (h : x < a ∨ a + want.length ≤ x) : (m.cutProgram draw op).byte x = m.byte x := by
  rcases m.cutProgram_cases draw himage with e | ⟨e, -⟩
  · rw [e]
  · rw [e, Memory.byte_setBytes_outside _ _ _ _ (by rwa [partProgrammed_length])]

/-! ### Listed bytes changed in place -/

theorem Table.find_none_of_filterMap {α : Type} {t : Table α} {f : Nat × α → Option (Nat × α)}
    (keys : ∀ c c', f c = some c' → c'.1 = c.1) {k : Nat} (h : ∀ c ∈ t, c.1 ≠ k) :
    Table.find (t.filterMap f) k = none := by
  induction t with
  | nil => rfl
  | cons c rest ih =>
    have hrest := ih fun x hx => h x (List.mem_cons_of_mem _ hx)
    cases hf : f c with
    | none => rwa [List.filterMap_cons_none hf]
    | some c' =>
      rw [List.filterMap_cons_some hf, Table.find,
        if_neg (keys c c' hf ▸ h c List.mem_cons_self), hrest]

/-- A table changed entry by entry, keys kept, holds at a key what becomes of the entry there. -/
theorem Table.find_filterMap {α : Type} {t : Table α} (ht : Table.Sorted t)
    {f : Nat × α → Option (Nat × α)} (keys : ∀ c c', f c = some c' → c'.1 = c.1) (k : Nat) :
    Table.find (t.filterMap f) k = (Table.find t k).bind fun v => (f (k, v)).map Prod.snd := by
  induction t with
  | nil => rfl
  | cons c rest ih =>
    obtain ⟨first, sorted⟩ := List.pairwise_cons.mp ht
    by_cases hk : c.1 = k
    · subst hk
      have above : Table.find (rest.filterMap f) c.1 = none :=
        Table.find_none_of_filterMap keys fun x hx =>
          Nat.ne_of_gt (first x.1 (List.mem_map_of_mem hx))
      rw [Table.find, if_pos rfl]
      cases hf : f c with
      | none => rw [List.filterMap_cons_none hf, above, Option.bind_some, hf]; rfl
      | some c' =>
        rw [List.filterMap_cons_some hf, Table.find, if_pos (keys c c' hf), Option.bind_some, hf]
        rfl
    · rw [Table.find, if_neg hk, ← ih sorted]
      cases hf : f c with
      | none => rw [List.filterMap_cons_none hf]
      | some c' =>
        rw [List.filterMap_cons_some hf, Table.find, if_neg (keys c c' hf ▸ hk)]

/-- A key whose entries are kept as they are holds what it held. -/
theorem Table.find_filterMap_kept {α : Type} (t : Table α) {f : Nat × α → Option (Nat × α)}
    (keys : ∀ c c', f c = some c' → c'.1 = c.1) {k : Nat} (kept : ∀ v, f (k, v) = some (k, v)) :
    Table.find (t.filterMap f) k = Table.find t k := by
  induction t with
  | nil => rfl
  | cons c rest ih =>
    by_cases hk : c.1 = k
    · subst hk
      rw [List.filterMap_cons_some (kept c.2), Table.find, if_pos rfl, Table.find, if_pos rfl]
    · rw [Table.find, if_neg hk, ← ih]
      cases hf : f c with
      | none => rw [List.filterMap_cons_none hf]
      | some c' => rw [List.filterMap_cons_some hf, Table.find, if_neg (keys c c' hf ▸ hk)]

/-! ### Cut erases -/

theorem cutMainCell_keys {draw : Nat} {p : Phys} (c c' : Host.Cell)
    (h : cutMainCell draw p c = some c') : c'.1 = c.1 := by
  unfold cutMainCell at h
  split at h
  · split at h
    · cases h
    · cases h; rfl
  · cases h; rfl

theorem cutTagCell_keys {draw : Nat} {p : Phys} (c c' : Host.Cell)
    (h : cutTagCell draw p c = some c') : c'.1 = c.1 := by
  unfold cutTagCell at h
  split at h
  · cases h; rfl
  · split at h
    · cases h
    · split at h
      · cases h
      · cases h; rfl

theorem partErased_erased (draw a : Nat) : partErased draw a erasedByte = erasedByte := by
  rw [partErased, erasedByte, show 0xFF#8 = BitVec.allOnes 8 from rfl, BitVec.allOnes_or]

/-- The bytes after an erase cut before the tag area (R58). -/
theorem byte_cutMain {m : Memory} (h : m.wf) (draw : Nat) (p : Phys) (x : Nat) :
    Memory.byte (m.filterMap (cutMainCell draw p)) x =
      if inSector p x && x < tagAddr p then partErased draw x (m.byte x) else m.byte x := by
  unfold Memory.byte Table.read
  rw [Table.find_filterMap h.1 cutMainCell_keys]
  cases Table.find m x with
  | none => simp [partErased_erased]
  | some v =>
    simp only [Option.bind_some, cutMainCell, Option.getD_some]
    split
    · split
      next e => exact e.symm
      next => rfl
    · rfl

/-- The bytes after an erase cut in the tag area, before the fields are cut (R58). -/
theorem byte_cutTagCells {m : Memory} (h : m.wf) (draw : Nat) (p : Phys) (x : Nat) :
    Memory.byte (m.filterMap (cutTagCell draw p)) x =
      if !inSector p x || inTagField p x then m.byte x
      else if x < tagAddr p then 0xFF#8 else partErased draw x (m.byte x) := by
  unfold Memory.byte Table.read
  rw [Table.find_filterMap h.1 cutTagCell_keys]
  cases Table.find m x with
  | none =>
    simp only [Option.bind_none, Option.getD_none, partErased_erased]
    split
    · rfl
    · split <;> rfl
  | some v =>
    simp only [Option.bind_some, cutTagCell, Option.getD_some]
    split
    · rfl
    · split
      · rfl
      · split
        next e => exact e.symm
        next => rfl

theorem partErasedField_length (draw a : Nat) (f : TagField) (old : List Byte) :
    (partErasedField draw a f old).length = old.length := by
  unfold partErasedField
  dsimp only
  split <;> simp

/-- A field after an erase cut in the tag area is as it was, blank or garbled (R58). -/
theorem partErasedField_cases (draw a : Nat) (f : TagField) (old : List Byte) :
    partErasedField draw a f old = old ∨ judgeField f (partErasedField draw a f old) = .blank ∨
      judgeField f (partErasedField draw a f old) = .garbled := by
  unfold partErasedField
  dsimp only
  split
  next h => exact .inr (.inl h)
  next h => exact .inr (.inr h)
  next => exact .inl rfl

theorem partErasedField_eq (draw a : Nat) (f : TagField) (old : List Byte) :
    partErasedField draw a f old = old ∨ partErasedField draw a f old =
      (List.range old.length).map fun i => partErased draw (a + i) (lineByte old i) := by
  unfold partErasedField
  dsimp only
  split
  · exact .inr rfl
  · exact .inr rfl
  · exact .inl rfl

theorem partErased_bits (draw a : Nat) (old : Byte) : old &&& ~~~ partErased draw a old = 0#8 := by
  unfold partErased
  ext i hi
  simp only [BitVec.getElem_and, BitVec.getElem_or, BitVec.getElem_not, BitVec.getElem_zero]
  cases old[i] <;> simp

theorem partErasedField_bits (draw a : Nat) (f : TagField) (old : List Byte) {i : Nat}
    (h : i < old.length) :
    old[i] &&& ~~~ (partErasedField draw a f old)[i]'(by rwa [partErasedField_length]) = 0#8 := by
  rcases partErasedField_eq draw a f old with e | e
  · simp only [e]
    exact (unchanged_bits _ 0).1
  · simp only [e, List.getElem_map, List.getElem_range, lineByte_eq_getElem h]
    exact partErased_bits _ _ _

theorem bytes_cutTag_other (m : Memory) (draw : Nat) (p : Phys) {f : TagField} {fs : List TagField}
    (h : f ∉ fs) : (m.cutTag draw p fs).bytes (tagAddr p + f.offset) f.length =
      m.bytes (tagAddr p + f.offset) f.length := by
  induction fs generalizing m with
  | nil => rfl
  | cons g rest ih =>
    rw [List.mem_cons, not_or] at h
    have apart := TagField.apart h.1
    rw [Memory.cutTag, ih _ h.2, Memory.bytes_setBytes_outside]
    rw [partErasedField_length, Memory.bytes_length]
    omega

theorem bytes_cutTag (m : Memory) (draw : Nat) (p : Phys) {f : TagField} {fs : List TagField}
    (once : fs.Nodup) (h : f ∈ fs) : (m.cutTag draw p fs).bytes (tagAddr p + f.offset) f.length =
      partErasedField draw (tagAddr p + f.offset) f (m.bytes (tagAddr p + f.offset) f.length) := by
  induction fs generalizing m with
  | nil => cases h
  | cons g rest ih =>
    obtain ⟨new, once⟩ := List.nodup_cons.mp once
    rw [Memory.cutTag]
    rcases List.mem_cons.mp h with rfl | h
    · rw [bytes_cutTag_other _ _ _ new]
      have stored := Memory.bytes_setBytes m (tagAddr p + f.offset)
        (partErasedField draw (tagAddr p + f.offset) f (m.bytes (tagAddr p + f.offset) f.length))
      rwa [partErasedField_length, Memory.bytes_length] at stored
    · have apart := TagField.apart (f := g) (g := f) fun e => new (e ▸ h)
      rw [ih _ once h, Memory.bytes_setBytes_outside]
      rw [partErasedField_length, Memory.bytes_length]
      omega

theorem byte_cutTag_outside (m : Memory) (draw : Nat) (p : Phys) (fs : List TagField) {x : Nat}
    (h : ∀ f ∈ fs, x < tagAddr p + f.offset ∨ tagAddr p + f.offset + f.length ≤ x) :
    (m.cutTag draw p fs).byte x = m.byte x := by
  induction fs generalizing m with
  | nil => rfl
  | cons g rest ih =>
    rw [Memory.cutTag, ih _ fun f hf => h f (List.mem_cons_of_mem _ hf),
      Memory.byte_setBytes_outside]
    rw [partErasedField_length, Memory.bytes_length]
    exact h g List.mem_cons_self

theorem mem_allFields (f : TagField) :
    f ∈ [TagField.count, .claim, .sealing, .release, .retire] := by cases f <;> decide

theorem inTagField_iff (p : Phys) (x : Nat) : inTagField p x = true ↔
    ∃ f : TagField, tagAddr p + f.offset ≤ x ∧ x < tagAddr p + f.offset + f.length := by
  simp only [inTagField, List.any_eq_true, Bool.and_eq_true, decide_eq_true_eq]
  exact ⟨fun ⟨f, _, h⟩ => ⟨f, h⟩, fun ⟨f, h⟩ => ⟨f, mem_allFields f, h⟩⟩

theorem inSector_of_inTagField {p : Phys} {x : Nat} (h : inTagField p x = true) :
    inSector p x = true ∧ tagAddr p ≤ x := by
  obtain ⟨f, lo, hi⟩ := (inTagField_iff p x).mp h
  have within := f.within
  rw [inSector_iff]
  unfold tagAddr sectorSpan at *
  omega

theorem byte_cutTag_noField (m : Memory) (draw : Nat) (p : Phys) {x : Nat}
    (h : inTagField p x = false) :
    (m.cutTag draw p [.count, .claim, .sealing, .release, .retire]).byte x = m.byte x := by
  refine byte_cutTag_outside _ _ _ _ fun f _ => ?_
  by_contra hin
  exact Bool.false_ne_true (h.symm.trans ((inTagField_iff p x).mpr ⟨f, by omega⟩))

/-- A cut erase leaves every byte outside its sector alone (R58). -/
theorem Memory.cutErase_outside (m : Memory) (draw : Nat) (p : Phys) {x : Nat}
    (h : inSector p x = false) : (m.cutErase draw p).byte x = m.byte x := by
  have noField : inTagField p x = false := by
    cases hf : inTagField p x
    · rfl
    · exact absurd (inSector_of_inTagField hf).1 (by simp [h])
  unfold Memory.cutErase
  split
  · rw [byte_cutTag_noField _ _ _ noField, Memory.byte, Table.read,
      Table.find_filterMap_kept _ cutTagCell_keys fun v => by simp [cutTagCell, h]]
    rfl
  · rw [Memory.byte, Table.read,
      Table.find_filterMap_kept _ cutMainCell_keys fun v => by simp [cutMainCell, h]]
    rfl

theorem fields_nodup : [TagField.count, .claim, .sealing, .release, .retire].Nodup := by decide

/-- The fields of a tag area after an erase cut in it. -/
theorem bytes_cutErase_field {m : Memory} (h : m.wf) (draw : Nat)
    (reached : Config.eraseReachedTag draw = true) (p : Phys) (f : TagField) :
    (m.cutErase draw p).bytes (tagAddr p + f.offset) f.length =
      partErasedField draw (tagAddr p + f.offset) f (m.bytes (tagAddr p + f.offset) f.length) := by
  have before : Memory.bytes (m.filterMap (cutTagCell draw p)) (tagAddr p + f.offset) f.length =
      m.bytes (tagAddr p + f.offset) f.length := by
    refine Memory.bytes_congr fun i hi => ?_
    have field : inTagField p (tagAddr p + f.offset + i) = true :=
      (inTagField_iff p _).mpr ⟨f, by omega⟩
    rw [byte_cutTagCells h, field, Bool.or_true, if_pos rfl]
  rw [Memory.cutErase, if_pos reached, bytes_cutTag _ _ _ fields_nodup (mem_allFields f), before]

theorem byte_cutErase_tag {m : Memory} (h : m.wf) (draw : Nat)
    (reached : Config.eraseReachedTag draw = true) (p : Phys) {x : Nat}
    (noField : inTagField p x = false) : (m.cutErase draw p).byte x =
      if !inSector p x then m.byte x
      else if x < tagAddr p then 0xFF#8 else partErased draw x (m.byte x) := by
  rw [Memory.cutErase, if_pos reached, byte_cutTag_noField _ _ _ noField, byte_cutTagCells h,
    noField, Bool.or_false]

theorem byte_cutErase_main {m : Memory} (h : m.wf) (draw : Nat)
    (reached : ¬ Config.eraseReachedTag draw = true) (p : Phys) (x : Nat) :
    (m.cutErase draw p).byte x =
      if inSector p x && x < tagAddr p then partErased draw x (m.byte x) else m.byte x := by
  rw [Memory.cutErase, if_neg reached, byte_cutMain h]

/-- A cut erase sets bits and clears none (R58). -/
theorem cutErase_bits {m : Memory} (h : m.wf) (draw : Nat) (p : Phys) (x : Nat) :
    m.byte x &&& ~~~ (m.cutErase draw p).byte x = 0#8 := by
  by_cases reached : Config.eraseReachedTag draw = true
  · cases hf : inTagField p x
    · rw [byte_cutErase_tag h draw reached p hf]
      split
      · exact (unchanged_bits _ 0).1
      · split
        · simp
        · exact partErased_bits _ _ _
    · obtain ⟨f, lo, hi⟩ := (inTagField_iff p x).mp hf
      obtain ⟨i, rfl⟩ := Nat.exists_eq_add_of_le lo
      have hlen : i < (m.bytes (tagAddr p + f.offset) f.length).length := by
        rw [Memory.bytes_length]; omega
      have bits := partErasedField_bits draw (tagAddr p + f.offset) f _ hlen
      simp only [← bytes_cutErase_field h draw reached p f, Memory.getElem_bytes] at bits
      exact bits
  · rw [byte_cutErase_main h draw reached]
    split
    · exact partErased_bits _ _ _
    · exact (unchanged_bits _ 0).1

/-- Settles O24: programs by the image they name, cut erases by whether they reached the tag area. -/
theorem mediumTakesOperations : Obligations.MediumTakesOperations := by
  refine ⟨fun m draw => ⟨?whole, fun p x => ?erase⟩, fun m draw hwf => ⟨?cut, ?cutErase⟩⟩
  case whole =>
    intro op a want himage
    rw [Memory.program_ok m draw himage]
    refine ⟨fun i h => ?_, fun x hx => ?_, ?_⟩
    · rw [Memory.byte_setBytes_inside _ _ _ _ (by rwa [programmed_length]), getElem_programmed]
    · exact Memory.byte_setBytes_outside _ _ _ _ (by rwa [programmed_length])
    · have stored := Memory.bytes_setBytes m a (programmed (m.bytes a want.length) want)
      rw [programmed_length] at stored
      rw [stored, beq_iff_eq]
  case erase =>
    split
    next h => exact Memory.byte_eraseSector_inside m p x h
    next h => exact Memory.byte_eraseSector_outside m p x (by simpa using h)
  case cut =>
    intro op a want himage n
    refine ⟨Memory.program_fail m draw himage, fun x hx => Memory.cutProgram_outside m draw himage hx,
      fun i h => Memory.cutProgram_bits m draw himage h, fun p c hop => ?_⟩
    rcases m.cutProgram_cases draw himage with e | ⟨e, allowed⟩
    · exact .inl (by simp only [n, e])
    · have stored := Memory.bytes_setBytes m a (partProgrammed draw a (m.bytes a want.length) want)
      rw [partProgrammed_length] at stored
      exact .inr (by simp only [n, e, stored]; exact allowed p c hop)
  case cutErase =>
    intro p n
    refine ⟨fun x hx => Memory.cutErase_outside m draw p hx, cutErase_bits hwf draw p,
      fun ⟨y, hy, hne⟩ x hx hlt => ?_, fun f => ?_⟩
    · by_cases reached : Config.eraseReachedTag draw = true
      · have noField : inTagField p x = false := by
          cases hf : inTagField p x
          · rfl
          · exact absurd (inSector_of_inTagField hf).2 (by omega)
        rw [byte_cutErase_tag hwf draw reached p noField, hx]
        simp [hlt]
      · rw [byte_cutErase_main hwf draw reached, if_neg] at hne
        · exact absurd rfl hne
        · simp; omega
    · intro old new
      simp only [old, new, fieldBytes_tag]
      by_cases reached : Config.eraseReachedTag draw = true
      · rw [bytes_cutErase_field hwf draw reached]
        exact partErasedField_cases _ _ _ _
      · refine .inl (Memory.bytes_congr fun i hi => ?_)
        rw [byte_cutErase_main hwf draw reached, if_neg]
        simp; omega

end Sys2Proof.Machine
end

section
/-!
PROOFS. What a happening changes of the medium (R47, R56 to R58, R113): each write to it lies in the
sector that an operation in progress or an erase named before the happening.
-/

namespace Sys2Proof.Machine

open Sys2Proof

/-- A die's operation in progress or its erase names a physical sector. -/
def Die.worksOn (die : Die) (p : Phys) : Prop :=
  (∃ r, die.inProgress = some r ∧ r.op.phys = p) ∨
    ∃ run, die.state.eraseRun = some run ∧ run.phys = p

theorem Die.worksOn_congr {die die' : Die} (h : die'.state = die.state) (p : Phys) :
    die'.worksOn p ↔ die.worksOn p := by
  unfold Die.worksOn Die.inProgress
  rw [h]

theorem workedOn_of_die {s : State} {d : DieId} {p : Phys} (h : (s.dies.get d).worksOn p) :
    workedOn s p :=
  ⟨d, h.elim .inl fun h => .inr (.inl h)⟩

/-- What a happening has done up to a moment: of the medium it changed only sectors worked on before it,
and the dies still work only on such. -/
structure Under (s t : State) : Prop where
  bytes : ∀ a, untouched s a → t.medium.byte a = s.medium.byte a
  works : ∀ d p, (t.dies.get d).worksOn p → workedOn s p

theorem Under.refl (s : State) : Under s s := ⟨fun _ _ => rfl, fun _ _ => workedOn_of_die⟩

section Under

variable {s t : State}

theorem Under.andThen {c : Instr} {u : State} (h : Under s t) (w : Writes c t u) : Under s u := by
  obtain ⟨medium, states⟩ := w.still
  exact ⟨fun a ha => by rw [medium, h.bytes a ha],
    fun d p hp => h.works d p ((Die.worksOn_congr (states d) p).mp hp)⟩

theorem Under.setMedium (h : Under s t) {m : Memory}
    (outside : ∀ a, untouched s a → m.byte a = t.medium.byte a) : Under s (t.setMedium m) :=
  ⟨fun a ha => (outside a ha).trans (h.bytes a ha), h.works⟩

theorem Under.setDraws (h : Under s t) {n : Nat} : Under s (t.setDraws n) := ⟨h.bytes, h.works⟩

theorem Under.setDie (h : Under s t) {d : DieId} {x : Die}
    (works : ∀ p, x.worksOn p → workedOn s p) : Under s (setDie d x t) := by
  refine ⟨h.bytes, fun e p hp => ?_⟩
  by_cases hd : e = d
  · subst hd
    rw [setDie_get_same] at hp
    exact works p hp
  · rw [setDie_get_other _ _ hd] at hp
    exact h.works e p hp

theorem Under.setDieState (h : Under s t) {d : DieId} {x : DieState}
    (works : ∀ p, Die.worksOn ⟨x, [], false, false⟩ p → workedOn s p) : Under s (setDieState d x t) :=
  h.setDie fun p hp => works p ((Die.worksOn_congr rfl p).mp hp)

/-- A die that works on nothing leaves no work. -/
theorem not_worksOn {die : Die} (hp : die.inProgress = none) (hr : die.state.eraseRun = none) (p : Phys) :
    ¬ die.worksOn p := by
  rintro (⟨r, h, -⟩ | ⟨run, h, -⟩)
  · rw [hp] at h; cases h
  · rw [hr] at h; cases h

theorem Under.free (h : Under s t) {d : DieId} : Under s (Machine.setDieState d .idle t) :=
  h.setDieState fun p hp => absurd hp (not_worksOn rfl rfl p)

theorem Under.cutInProgress (h : Under s t) {d : DieId} : Under s (cutInProgress d t) := by
  have erases {run : EraseRun} (hrun : (t.dies.get d).state.eraseRun = some run) :
      Under s ((t.setMedium (t.medium.cutErase t.draws run.phys)).setDraws (t.draws + 1)) :=
    (h.setMedium fun a ha => Memory.cutErase_outside _ _ _
      (ha _ (h.works d _ (.inr ⟨run, hrun, rfl⟩)))).setDraws
  unfold Machine.cutInProgress
  split
  next r time hst =>
    refine (h.setMedium fun a ha => ?_).setDraws
    have outside : inSector r.op.phys a = false :=
      ha _ (h.works d _ (.inl ⟨r, by rw [Die.inProgress, hst], rfl⟩))
    cases himage : r.op.image with
    | none => cases hop : r.op <;> simp_all [DieOp.image, Memory.cutProgram]
    | some x =>
      refine Memory.cutProgram_outside _ _ himage ?_
      by_contra hin
      obtain ⟨i, rfl⟩ := Nat.exists_eq_add_of_le (show x.1 ≤ a by omega)
      exact Bool.false_ne_true (outside.symm.trans (inSector_of_image himage (by omega)))
  next run hst => exact erases (by rw [hst]; rfl)
  next run _ hst => exact erases (by rw [hst]; rfl)
  next run _ _ _ hst => exact erases (by rw [hst]; rfl)
  next run _ _ hst => exact erases (by rw [hst]; rfl)
  all_goals exact h

theorem Under.dieReset (h : Under s t) {d : DieId} {cause : ResetCause} :
    Under s (dieReset d cause t) :=
  h.cutInProgress.setDieState fun p hp => absurd hp (not_worksOn rfl rfl p)

/-- The schedulers' choice ends a happening: they cut what an abandonment ends, at each die. -/
theorem Under.settle (h : Under s t) : ∀ a, untouched s a →
    (settle t).medium.byte a = s.medium.byte a := by
  intro a ha
  by_cases hop : t.power.op = .failed
  · rw [settle_failed hop, h.bytes a ha]
  · have cut {m : Memory} {n : Nat} {d : DieId} {run : EraseRun} (hc : (t.dies.get d).abandons run) :
        (m.cutErase n run.phys).byte a = m.byte a :=
      Memory.cutErase_outside _ _ _
        (ha _ (h.works d _ (.inr ⟨run, by rw [hc.1]; rfl, rfl⟩)))
    obtain ⟨m, n, keep0, cut0, keep1, cut1⟩ := settle_cuts hop
    have first : m.byte a = t.medium.byte a := by
      by_cases h0 : ∃ run, (t.dies.get .die0).abandons run
      · obtain ⟨run, h0⟩ := h0
        rw [(cut0 run h0).1, cut h0]
      · rw [(keep0 fun run hr => h0 ⟨run, hr⟩).1]
    rw [← h.bytes a ha, ← first]
    by_cases h1 : ∃ run, (t.dies.get .die1).abandons run
    · obtain ⟨run, h1⟩ := h1
      rw [cut1 run h1]
      exact cut h1
    · rw [keep1 fun run hr => h1 ⟨run, hr⟩]

theorem Under.endOperation (h : Under s t) {d : DieId} : Under s (endOperation d t) := by
  unfold Machine.endOperation
  split
  next run r _ _ hst =>
    refine h.setDieState fun p hp => h.works d p (.inr ?_)
    rcases hp with ⟨r', hr', -⟩ | ⟨run', hrun', hphys⟩
    · cases hr'
    · exact ⟨run', by rw [hst]; exact hrun', hphys⟩
  · exact h.free
  · exact h.free
  all_goals exact h

theorem Under.endProgram (h : Under s t) {op : DieOp} {ok : Bool} (hop : workedOn s op.phys) :
    Under s (endProgram op ok t).1 := by
  refine (h.setMedium fun a ha => ?_).setDraws
  have outside := ha _ hop
  cases himage : op.image with
  | none => simp only [Memory.program, himage]
  | some x =>
    have apart : a < x.1 ∨ x.1 + x.2.length ≤ a := by
      by_contra hin
      obtain ⟨i, rfl⟩ := Nat.exists_eq_add_of_le (show x.1 ≤ a by omega)
      exact Bool.false_ne_true (outside.symm.trans (inSector_of_image himage (by omega)))
    cases ok with
    | true =>
      rw [Memory.program_ok _ _ himage]
      exact Memory.byte_setBytes_outside _ _ _ _ (by rwa [programmed_length])
    | false =>
      rw [Memory.program_fail _ _ himage]
      exact Memory.cutProgram_outside _ _ himage apart

theorem elapse_medium (dt : Nat) (s : State) : (elapse dt s).medium = s.medium := by
  rw [elapse_blocks]

theorem DieState.worksOn_elapse (st : DieState) (op : OpState) (dt : Nat) (p : Phys) :
    Die.worksOn ⟨st.elapse op dt, [], false, false⟩ p ↔ Die.worksOn ⟨st, [], false, false⟩ p := by
  by_cases hop : op = .failed
  · cases st <;> simp [Die.worksOn, DieState.elapse, hop, Die.inProgress, DieState.eraseRun]
  · cases st <;> simp [Die.worksOn, DieState.elapse, hop, Die.inProgress, DieState.eraseRun]

theorem Under.elapse (h : Under s t) {dt : Nat} : Under s (elapse dt t) := by
  refine ⟨fun a ha => by rw [elapse_medium, h.bytes a ha], fun d p hp => h.works d p ?_⟩
  rw [elapse_get] at hp
  refine (Die.worksOn_congr rfl p).mp ((DieState.worksOn_elapse _ t.power.op dt p).mp ?_)
  exact (Die.worksOn_congr rfl p).mp hp

theorem Under.abandonErase (h : Under s t) {d : DieId} : Under s (abandonErase d t) := by
  unfold Machine.abandonErase
  split
  case h_1 | h_2 => exact h.dieReset
  case h_3 hst =>
    exact h.setDieState fun p hp => h.works d p ((Die.worksOn_congr rfl p).mp
      (by unfold Die.worksOn Die.inProgress at hp ⊢; rw [hst]; exact hp))
  case h_4 hst =>
    exact h.setDieState fun p hp => h.works d p ((Die.worksOn_congr rfl p).mp
      (by unfold Die.worksOn Die.inProgress at hp ⊢; rw [hst]; exact hp))
  all_goals exact h

theorem Under.slotPowersDown (c : Instr) (h : Under s t) {d : DieId} :
    Under s (slotPowersDown d t) := by
  unfold Machine.slotPowersDown
  split
  · split
    · refine Under.andThen (c := c) (h.setDie fun p hp => h.works d p ?_) Writes.refl.slotRejoins
      exact (Die.worksOn_congr rfl p).mp hp
    · exact h.abandonErase
  all_goals exact h

theorem Under.eraseEnded (h : Under s t) {d : DieId} : Under s (eraseEnded d t) := by
  unfold Machine.eraseEnded
  split
  · exact h.free
  · exact h.setDieState fun p hp => absurd hp (not_worksOn rfl rfl p)
  all_goals exact h

theorem Under.pauseAnswered (c : Instr) (h : Under s t) {d : DieId} {held : Bool} :
    Under s (pauseAnswered d held t) := by
  unfold Machine.pauseAnswered
  split
  next run abandon time hst =>
    refine (h.setDieState fun p hp => h.works d p (.inr ?_)).andThen (c := c) Writes.refl.countUp
    rcases hp with ⟨r', hr', -⟩ | ⟨run', hrun', hphys⟩
    · cases hr'
    · cases hrun'
      exact ⟨run, by rw [hst]; rfl, hphys⟩
  · exact h.free
  · exact h

theorem Under.operationTimesOut (h : Under s t) {d : DieId} : Under s (operationTimesOut d t) := by
  unfold Machine.operationTimesOut
  split
  case h_1 | h_2 | h_3 | h_4 => exact h.elapse.dieReset
  all_goals exact h

theorem Under.pauseTimesOut (c : Instr) (h : Under s t) {d : DieId} : Under s (pauseTimesOut d t) := by
  unfold Machine.pauseTimesOut
  split
  · exact (h.elapse.andThen (c := c) Writes.refl.record).dieReset
  all_goals exact h

theorem Under.dieResetTimesOut (c : Instr) (h : Under s t) {d : DieId} :
    Under s (dieResetTimesOut d t) := by
  unfold Machine.dieResetTimesOut
  split
  · split
    · exact h
    next time answered _ _ =>
      have told := (h.elapse (dt := resetLimit - time)).andThen (c := c)
        (Writes.refl.record (b := .dieOffline d))
      refine Under.andThen (c := c) (told.setDie fun p hp => told.works d p ?_)
        Writes.refl.enterFailed
      exact (Die.worksOn_congr rfl p).mp hp
  all_goals exact h

theorem Under.dieReady {c : Instr} {d : DieId} {p : ResetCause → Bool}
    (hc : ∀ cause, p cause = true → cause.isTimeout = true → mayRebind c = true) (a : Nat)
    (ha : untouched s a) : (dieReady d p s).medium.byte a = s.medium.byte a := by
  have h := Under.refl s
  unfold Machine.dieReady
  split
  · split
    next hp =>
      split
      · unfold readyDisregarded
        split <;> rfl
      · exact (h.free.andThen (c := c)
          (Writes.refl.readyBrings (hc _ (Bool.and_eq_true_iff.1 hp).1))).settle a ha
    next => rfl
  all_goals rfl

/-- The sector that an answered operation names is worked on. -/
theorem workedOn_of_answering {d : DieId} {who : Requester} {op : DieOp}
    (h : answering s d who = some op) : workedOn s op.phys := by
  unfold answering at h
  split at h
  · cases h
  · split at h
    next r hr =>
      split at h
      · obtain rfl := Option.some.inj h
        exact workedOn_of_die (d := d) (.inl ⟨r, hr, rfl⟩)
      · cases h
    next => cases h

end Under

/-! ### The commands -/

theorem exec_medium_unframed {c : Instr} {s t : State} {a : Nat} (hc : isReset c = false)
    (hf : ∀ bytes, c ≠ .badCommandFrame bytes) (h : exec c s = .next t) (ha : untouched s a) :
    t.medium.byte a = s.medium.byte a := by
  have r := Under.refl s
  have w {u : State} := Writes.refl (c := c) (s := u)
  have written {u : State} (hw : Writes c s u) : u.medium.byte a = s.medium.byte a := by
    rw [hw.still.1]
  have ended (d : DieId) {op : DieOp} {ok : Bool} {who : Requester} {e : DieId}
      (ho : answering s e who = some op) : Under s (endProgram op ok (endOperation d s)).1 :=
    r.endOperation.endProgram (workedOn_of_answering ho)
  cases c
  case por | rstAsserted => cases hc
  case badCommandFrame bytes => exact absurd rfl (hf bytes)
  all_goals injection h with h; subst h
  case rstReleased => split; exacts [(r.andThen w.releaseRst).settle a ha, rfl]
  case pfailAsserted =>
    split
    · have sealed := r.andThen (Writes.sealAll (w.setPower (t := s)
        (p := { s.power with op := .powerdown, pfail := true }) (fun hs => OpState.noConfusion hs)
        (by exact id)))
      exact ((sealed.slotPowersDown .pfailAsserted).slotPowersDown .pfailAsserted).settle a ha
    · rfl
  case pfailReleased =>
    split
    · exact (r.andThen (Writes.returnToRunning
        (w.setPower (by exact id) (by exact id)))).settle a ha
    · rfl
  case flushFallingEdge => exact written w.sealAll
  case hostRead => exact (r.andThen w.arrive).settle a ha
  case hostWrite => exact written w.arrive
  case hostCycleAbandoned => exact written w.abandonCycle
  case hostCycleEnd => exact written w.endCycle
  case commitDelayExpiry => split; exacts [(r.elapse.andThen w.sealEntry).bytes a ha, rfl]
  case longStall =>
    split
    · split; exacts [rfl, r.elapse.bytes a ha]
    · rfl
  case heldWritePresented => exact written w.presentHeldWrite
  case flushDrain => exact written w.reportDrain
  case laneTake => split; exacts [(r.andThen w.laneTakes).settle a ha, rfl]
  case laneReadLineResult => split; exacts [(r.endOperation.andThen w.laneTests).settle a ha, rfl]
  case laneProgramLineResult d ok =>
    split
    next ho => exact ((ended d ho).andThen w.laneProgrammed).settle a ha
    next => rfl
  case relocationTake => split; exacts [(r.andThen w.relocationTakes).settle a ha, rfl]
  case spareReport => split; exacts [(r.andThen w.spareReported).settle a ha, rfl]
  case claimResult =>
    split
    · split
      next ho => exact ((ended _ ho).andThen w.claimEnds).settle a ha
      next => rfl
    · rfl
  case copyReadLineResult =>
    split
    · split
      · split; exacts [(r.endOperation.andThen w.copyLineReturns).settle a ha, rfl]
      · rfl
    · rfl
  case copyProgramLineResult =>
    split
    · split
      next ho => exact ((ended _ ho).andThen w.copyProgramEnds).settle a ha
      next => rfl
    · rfl
  case sealResult =>
    split
    · split
      next ho => exact ((ended _ ho).andThen (w.sealEnds rfl)).settle a ha
      next => rfl
    · rfl
  case sourceRetireResult =>
    split
    · split
      next ho => exact ((ended _ ho).andThen w.sourceRetireEnds).settle a ha
      next => rfl
    · rfl
  case targetRetireResult =>
    split
    · split
      next ho => exact ((ended _ ho).andThen w.targetRetireEnds).settle a ha
      next => rfl
    · rfl
  case eraseStart =>
    split
    · split; exacts [(r.andThen w.startErase).settle a ha, rfl]
    · rfl
  case eraseSectorResult d ok =>
    split
    next i hslot =>
      have outside (x : Nat) (hx : untouched s x) : inSector i.phys x = false :=
        hx _ ⟨d, .inr (.inr ⟨i, hslot, rfl⟩)⟩
      split
      · dsimp only
        split
        · exact ((r.eraseEnded.setMedium fun x hx =>
            Memory.byte_eraseSector_outside _ _ _ (outside x hx)).andThen w.erasePasses).settle a ha
        · exact ((r.eraseEnded.setMedium fun x hx =>
            Memory.cutErase_outside _ _ _ (outside x hx)).setDraws.andThen w.eraseFails).settle a ha
      · rfl
    next => rfl
  case countResult =>
    split
    next ho => exact ((ended _ ho).andThen w.countEnds).settle a ha
    next => rfl
  case eraseRetireResult =>
    split
    next ho => exact ((ended _ ho).andThen w.slotRetireEnds).settle a ha
    next => rfl
  case releaseProgramResult =>
    split
    · split
      next ho => exact ((ended _ ho).andThen (w.releaseMarkEnds rfl)).settle a ha
      next => rfl
    · rfl
  case releaseRetireResult =>
    split
    · split
      next ho => exact ((ended _ ho).andThen (w.releaseRetireEnds rfl)).settle a ha
      next => rfl
    · rfl
  case hostReadLineResult =>
    split
    · split; exacts [(r.endOperation.andThen w.portReadResult).settle a ha, rfl]
    · rfl
  case readTagResult => split; exacts [(r.endOperation.andThen w.scanTag).settle a ha, rfl]
  case pauseAnswer d held => split; exacts [rfl, (r.pauseAnswered (.pauseAnswer d held)).settle a ha]
  case progressIntervalReached =>
    split
    · rfl
    · split; exacts [r.elapse.settle a ha, rfl]
  case operationTimeout => split; exacts [rfl, r.operationTimesOut.bytes a ha]
  case pauseTimeout d => split; exacts [rfl, (r.pauseTimesOut (.pauseTimeout d)).bytes a ha]
  case dieResetTimeout d => exact (r.dieResetTimesOut (.dieResetTimeout d)).bytes a ha
  case dieReadyAfterReset d =>
    exact Under.dieReady (c := .dieReadyAfterReset d)
      (fun cause hp ht => by cases cause <;> cases hp; cases ht) a ha
  case dieReadyAfterTimeout d =>
    exact Under.dieReady (c := .dieReadyAfterTimeout d) (fun _ _ _ => rfl) a ha
  case dieReadyAfterPauseTimeout d =>
    exact Under.dieReady (c := .dieReadyAfterPauseTimeout d)
      (fun cause hp ht => by cases cause <;> cases hp; cases ht) a ha
  case dieReadyAfterAbandon d =>
    exact Under.dieReady (c := .dieReadyAfterAbandon d)
      (fun cause hp ht => by cases cause <;> cases hp; cases ht) a ha
  case scanEnd => split; exacts [(r.andThen w.endScan).settle a ha, rfl]
  case status => exact written w.respond
  case flush => exact written (w.unlessBusy w.acceptFlush)
  case readRegion => exact written (w.unlessRefused w.answerReadRegion)
  case writeRegion => exact written (w.unlessRefused w.answerWriteRegion)
  case freezeRegion => exact written (w.unlessRefused w.answerFreezeRegion)
  case readCounters =>
    refine written (w.unlessStarting ?_)
    exact w.respond
  case clearCounters =>
    exact written (w.unlessRefused
      (.respond (w.setLink (by exact id) fun hn => absurd (.inl rfl) hn)))
  case readFault => exact written (w.unlessStarting w.answerReadFault)
  case mapQuery => exact written (w.unlessRefused w.answerMapQuery)
  case sectorQuery => exact written (w.unlessRefused w.answerSectorQuery)
  case releaseSector n =>
    obtain ⟨u, hu, h | h⟩ := releaseSector_writes (.releaseSector n) n s <;> rw [h]
    · exact written hu
    · exact (r.andThen hu).settle a ha
  case setTiming => exact written (w.unlessRefused w.answerSetTiming)
  case eventEnable => exact written (w.unlessRefused w.answerEventEnable)

theorem cutBoth_under (s : State) : Under s (cutBoth s) :=
  (Under.refl s).cutInProgress.cutInProgress

/-- Settles O15: a reset by what it cuts on the two dies, every other command by the writes of its
happening and the schedulers' choice at its end. -/
theorem mediumChangesUnderWork : Obligations.MediumChangesUnderWork := by
  intro c s t a h ha
  by_cases hc : isReset c = true
  · have bytes := (cutBoth_under s).bytes a ha
    rcases exec_reset hc h with ⟨-, rfl⟩ | ⟨-, rfl⟩
    · exact bytes
    · exact bytes
  · have plain : isReset c = false := by simpa using hc
    by_cases hf : ∃ bytes, c = .badCommandFrame bytes
    · obtain ⟨bytes, rfl⟩ := hf
      rcases badFrame_cases h with ⟨code, command, rfl⟩ | rfl | ⟨c, hj, hframe, hrun⟩
      · rfl
      · rfl
      · obtain ⟨-, -, hreset, hbad⟩ := commandParts_plain hframe
        exact exec_medium_unframed hreset hbad hrun ha
    · exact exec_medium_unframed plain (fun bytes hb => hf ⟨bytes, hb⟩) h ha

end Sys2Proof.Machine
end

section
/-!
PROOFS. The sealing of several entries (R7, R11): the entries sealed in their order, and what the sealing
asks of the map and the relocation queue (R78).
-/

namespace Sys2Proof.Machine

open Sys2Proof

/-! ### Requests for BACKING -/

/-- `t` holds the map and the relocation queue of `s` after BACKING was asked for the sectors of `asks`
(R78). -/
def AsksFor (asks : Sector → Prop) (s t : State) : Prop :=
  (∀ l, let e := mapEntry s l
    (¬ asks l → mapEntry t l = e) ∧
    (asks l →
      (e.reloc = .absent → mapEntry t l = { e with reloc := .queued .backing }) ∧
      (∀ r, e.reloc = .queued r → mapEntry t l = e) ∧
      (∀ x b, e.reloc = .inFlight x b → mapEntry t l = { e with reloc := .inFlight x true }))) ∧
  ∃ new : List Sector, new.Nodup ∧
    (∀ l, l ∈ new ↔ asks l ∧ (mapEntry s l).reloc = .absent) ∧
    t.reloc = { s.reloc with queue := s.reloc.queue ++ new.map fun l => ⟨l, .backing⟩ }

theorem AsksFor.of_same {s t : State} (hm : t.map = s.map) (hr : t.reloc = s.reloc)
    {asks : Sector → Prop} (none : ∀ l, ¬ asks l) : AsksFor asks s t :=
  ⟨fun l => ⟨fun _ => mapEntry_congr hm l, fun h => absurd h (none l)⟩,
    [], List.nodup_nil, fun l => by simp [none l], by simp [hr]⟩

theorem AsksFor.congr {asks asks' : Sector → Prop} {s t : State} (h : AsksFor asks s t)
    (same : ∀ l, asks l ↔ asks' l) : AsksFor asks' s t := by
  rwa [← funext fun l => propext (same l)]

/-- The requests read and write the map and the relocation queue alone. -/
theorem AsksFor.of_eq {asks : Sector → Prop} {s t u : State} (h : AsksFor asks s t)
    (hm : u.map = t.map) (hr : u.reloc = t.reloc) : AsksFor asks s u := by
  unfold AsksFor at h ⊢
  simp only [mapEntry_congr hm, hr]
  exact h

theorem AsksFor.start_eq {asks : Sector → Prop} {s t u : State} (h : AsksFor asks s t)
    (hm : u.map = s.map) (hr : u.reloc = s.reloc) : AsksFor asks u t := by
  unfold AsksFor at h ⊢
  simp only [mapEntry_congr hm, hr]
  exact h

/-- BACKING never changes a sector's binding or its flags. -/
theorem AsksFor.flags {asks : Sector → Prop} {s t : State} (h : AsksFor asks s t) (l : Sector) :
    (mapEntry t l).binding = (mapEntry s l).binding ∧
      (mapEntry t l).releasing = (mapEntry s l).releasing := by
  obtain ⟨entries, -⟩ := h
  obtain ⟨other, asked⟩ := entries l
  by_cases ha : asks l
  · obtain ⟨absent, queued, flight⟩ := asked ha
    cases hr : (mapEntry s l).reloc with
    | absent => rw [absent hr]; exact ⟨rfl, rfl⟩
    | queued r => rw [queued r hr]; exact ⟨rfl, rfl⟩
    | inFlight x b => rw [flight x b hr]; exact ⟨rfl, rfl⟩
  · rw [other ha]; exact ⟨rfl, rfl⟩

theorem requestReloc_backing_other {l x : Sector} (h : x ≠ l) (s : State) :
    mapEntry (requestReloc l .backing s) x = mapEntry s x := by
  unfold requestReloc
  dsimp only
  split
  all_goals first | rfl | exact mapEntry_setMapEntry_other _ _ h

section OneRequest

variable {l : Sector} {s : State}

theorem requestReloc_backing_absent (h : (mapEntry s l).reloc = .absent) :
    mapEntry (requestReloc l .backing s) l = { mapEntry s l with reloc := .queued .backing } ∧
      (requestReloc l .backing s).reloc =
        { s.reloc with queue := s.reloc.queue ++ [⟨l, .backing⟩] } := by
  simp only [requestReloc, h]
  exact ⟨mapEntry_setMapEntry_same _ _ _, rfl⟩

theorem requestReloc_backing_queued {r : RelocReason} (h : (mapEntry s l).reloc = .queued r) :
    requestReloc l .backing s = s := by
  cases r <;> simp only [requestReloc, h]

theorem requestReloc_backing_inFlight {x : Option Phys} {b : Bool}
    (h : (mapEntry s l).reloc = .inFlight x b) :
    mapEntry (requestReloc l .backing s) l = { mapEntry s l with reloc := .inFlight x true } ∧
      (requestReloc l .backing s).reloc = s.reloc := by
  simp only [requestReloc, h]
  exact ⟨mapEntry_setMapEntry_same _ _ _, rfl⟩

end OneRequest

/-- One more sector asks. -/
theorem AsksFor.ask {asks : Sector → Prop} {s t : State} (h : AsksFor asks s t) (l : Sector) :
    AsksFor (fun x => asks x ∨ x = l) s (requestReloc l .backing t) := by
  obtain ⟨entries, new, once, mem, queue⟩ := h
  have others {x : Sector} (hx : x ≠ l) : let e := mapEntry s x
      let u := requestReloc l .backing t
      (¬ (asks x ∨ x = l) → mapEntry u x = e) ∧ (asks x ∨ x = l →
        (e.reloc = .absent → mapEntry u x = { e with reloc := .queued .backing }) ∧
        (∀ r, e.reloc = .queued r → mapEntry u x = e) ∧
        (∀ y b, e.reloc = .inFlight y b → mapEntry u x = { e with reloc := .inFlight y true })) := by
    simp only [requestReloc_backing_other hx, hx, or_false]
    exact entries x
  have own {e' : MapEntry} (he : mapEntry (requestReloc l .backing t) l = e')
      (table : ((mapEntry s l).reloc = .absent →
          e' = { mapEntry s l with reloc := .queued .backing }) ∧
        (∀ r, (mapEntry s l).reloc = .queued r → e' = mapEntry s l) ∧
        (∀ y b, (mapEntry s l).reloc = .inFlight y b →
          e' = { mapEntry s l with reloc := .inFlight y true })) (x : Sector) :
      let e := mapEntry s x
      let u := requestReloc l .backing t
      (¬ (asks x ∨ x = l) → mapEntry u x = e) ∧ (asks x ∨ x = l →
        (e.reloc = .absent → mapEntry u x = { e with reloc := .queued .backing }) ∧
        (∀ r, e.reloc = .queued r → mapEntry u x = e) ∧
        (∀ y b, e.reloc = .inFlight y b → mapEntry u x = { e with reloc := .inFlight y true })) := by
    by_cases hx : x = l
    · subst hx
      exact ⟨fun hn => absurd (.inr rfl) hn, fun _ => he ▸ table⟩
    · exact others hx
  have kept (hq : (requestReloc l .backing t).reloc = t.reloc)
      (old : asks l ∨ (mapEntry s l).reloc ≠ .absent) :
      ∃ new : List Sector, new.Nodup ∧
        (∀ x, x ∈ new ↔ (asks x ∨ x = l) ∧ (mapEntry s x).reloc = .absent) ∧
        (requestReloc l .backing t).reloc =
          { s.reloc with queue := s.reloc.queue ++ new.map fun l => ⟨l, .backing⟩ } := by
    refine ⟨new, once, fun x => ?_, hq.trans queue⟩
    rw [mem]
    constructor
    · exact fun ⟨ha, hr⟩ => ⟨.inl ha, hr⟩
    · rintro ⟨ha | rfl, hr⟩
      · exact ⟨ha, hr⟩
      · exact ⟨old.resolve_right (not_not.mpr hr), hr⟩
  obtain ⟨other, asked⟩ := entries l
  by_cases ha : asks l
  · obtain ⟨absent, queued, flight⟩ := asked ha
    cases hr : (mapEntry s l).reloc with
    | absent =>
      have same := requestReloc_backing_queued (r := .backing) (by rw [absent hr])
      exact ⟨own (by rw [same]) (asked ha), kept (by rw [same]) (.inl ha)⟩
    | queued r =>
      have same := requestReloc_backing_queued (r := r) (by rw [queued r hr, hr])
      exact ⟨own (by rw [same]) (asked ha), kept (by rw [same]) (.inl ha)⟩
    | inFlight y b =>
      have field : (mapEntry t l).reloc = .inFlight y true := by rw [flight y b hr]
      obtain ⟨entry, same⟩ := requestReloc_backing_inFlight field
      refine ⟨own (entry.trans ?_) (asked ha), kept same (.inl ha)⟩
      rw [← field]
  · have field := other ha
    cases hr : (mapEntry s l).reloc with
    | absent =>
      obtain ⟨entry, joined⟩ := requestReloc_backing_absent (by rw [field, hr])
      rw [field] at entry
      refine ⟨own entry ⟨fun _ => rfl, fun r h => ?_, fun y b h => ?_⟩, new ++ [l], ?_, fun x => ?_,
        ?_⟩
      · rw [hr] at h; cases h
      · rw [hr] at h; cases h
      · exact List.nodup_append.mpr ⟨once, List.nodup_singleton l, fun a ham b hb hab =>
          ha (by simp only [List.mem_singleton] at hb; exact (hb ▸ hab) ▸ ((mem a).mp ham).1)⟩
      · rw [List.mem_append, mem, List.mem_singleton, or_and_right]
        exact or_congr_right ⟨fun h => ⟨h, by rw [h, hr]⟩, And.left⟩
      · rw [joined, queue]
        simp
    | queued r =>
      have same := requestReloc_backing_queued (r := r) (by rw [field, hr])
      refine ⟨own (by rw [same, field]) ⟨fun h => ?_, fun _ _ => rfl, fun y b h => ?_⟩,
        kept (by rw [same]) (.inr (by simp [hr]))⟩
      · rw [hr] at h; cases h
      · rw [hr] at h; cases h
    | inFlight y b =>
      obtain ⟨entry, same⟩ := requestReloc_backing_inFlight (by rw [field, hr])
      rw [field] at entry
      refine ⟨own entry ⟨fun h => ?_, fun r h => ?_, fun y' b' h => ?_⟩,
        kept same (.inr (by simp [hr]))⟩
      · rw [hr] at h; cases h
      · rw [hr] at h; cases h
      · rw [hr] at h; injection h with h; rw [h]

/-! ### Sealing in order -/

/-- The entries that meet `q` sealed in their order, the seal orders counted from `n`. -/
def sealedBy (q : Entry → Bool) : Nat → List Entry → List Entry
  | _, [] => []
  | n, e :: rest =>
    if q e then { e with stage := .sealed n } :: sealedBy q (n + 1) rest
    else e :: sealedBy q n rest

theorem sealedBy_append (q : Entry → Bool) (n : Nat) (es fs : List Entry) :
    sealedBy q n (es ++ fs) = sealedBy q n es ++ sealedBy q (n + es.countP q) fs := by
  induction es generalizing n with
  | nil => rfl
  | cons e rest ih =>
    rw [List.cons_append, sealedBy, sealedBy, ih, ih, List.countP_cons]
    by_cases hq : q e
    · simp only [hq, if_true, List.cons_append]
      rw [show n + 1 + rest.countP q = n + (rest.countP q + 1) by omega]
    · simp [hq]

theorem sealedBy_openOrders (q : Entry → Bool) (n : Nat) (es : List Entry) :
    (sealedBy q n es).map (·.openOrder) = es.map (·.openOrder) := by
  induction es generalizing n with
  | nil => rfl
  | cons e rest ih =>
    rw [sealedBy]
    split <;> simp [ih]

theorem sealedFrom_eq (n : Nat) (es : List Entry) : sealedFrom n es = sealedBy Entry.isOpen n es := by
  induction es generalizing n with
  | nil => rfl
  | cons e rest ih => rw [sealedFrom, sealedBy, ih, ih]

theorem sealedOverdue_eq (delay : BitVec 16) (n : Nat) (es : List Entry) :
    sealedOverdue delay.toNat n es = sealedBy (overdue delay) n es := by
  induction es generalizing n with
  | nil => rfl
  | cons e rest ih =>
    rw [sealedOverdue, sealedBy, ih, ih]
    cases hst : e.stage <;> simp [overdue, hst]

/-- The act of sealing where open orders differ: the entry at its place takes the next seal order. -/
theorem sealEntry_at {s : State} {pre post : List Entry} {e : Entry}
    (hs : s.wmb.entries = pre ++ e :: post)
    (once : (s.wmb.entries.map (·.openOrder)).Nodup) (hopen : e.isOpen = true) :
    let sealed := s.setWmb { s.wmb with
      entries := pre ++ { e with stage := .sealed s.wmb.sealCounter } :: post
      sealCounter := s.wmb.sealCounter + 1 }
    sealEntry e.openOrder s =
      if s.power.op ≠ .failed ∧ (mapEntry s e.sector).binding = none ∧
          (mapEntry s e.sector).releasing = false then
        requestReloc e.sector .backing sealed
      else sealed := by
  rw [hs, List.map_append, List.map_cons, List.nodup_append, List.nodup_cons] at once
  obtain ⟨-, ⟨notPost, -⟩, notPre⟩ := once
  have before (x : Entry) (hx : x ∈ pre) : x.openOrder ≠ e.openOrder :=
    notPre _ (List.mem_map_of_mem hx) _ List.mem_cons_self
  have after (x : Entry) (hx : x ∈ post) : x.openOrder ≠ e.openOrder :=
    fun h => notPost (h ▸ List.mem_map_of_mem hx)
  have found : s.wmb.entries.find? (fun x => x.openOrder == e.openOrder && x.isOpen) = some e := by
    rw [hs]
    refine List.find?_eq_some_iff_append.mpr ⟨by simp [hopen], pre, post, rfl, fun x hx => ?_⟩
    simp [before x hx]
  have only_e (n : Nat) : (s.wmb.entries.map fun x =>
        if x.openOrder = e.openOrder ∧ x.isOpen then { x with stage := .sealed n } else x) =
      pre ++ { e with stage := .sealed n } :: post := by
    rw [hs, List.map_append, List.map_cons, if_pos ⟨rfl, hopen⟩]
    congr 1
    · exact (List.map_congr_left fun x hx => if_neg fun h => before x hx h.1).trans (List.map_id _)
    · congr 1
      exact (List.map_congr_left fun x hx => if_neg fun h => after x hx h.1).trans (List.map_id _)
  unfold sealEntry
  rw [found]
  simp only [only_e]

/-- What the sealing of some entries leaves (R2, R7). -/
structure SealedAs (q : Entry → Bool) (es post : List Entry) (s t : State) : Prop where
  wmb : t.wmb = { s.wmb with
    entries := sealedBy q s.wmb.sealCounter es ++ post
    sealCounter := s.wmb.sealCounter + es.countP q }
  blocks : t = ((s.setWmb t.wmb).setMap t.map).setReloc t.reloc
  failed : s.power.op = .failed → t.map = s.map ∧ t.reloc = s.reloc
  asks : s.power.op ≠ .failed → AsksFor (fun l => (mapEntry s l).binding = none ∧
    (mapEntry s l).releasing = false ∧ ∃ e ∈ es, q e = true ∧ e.sector = l) s t

theorem requestReloc_blocks (l : Sector) (r : RelocReason) (s : State) : requestReloc l r s =
    (s.setMap (requestReloc l r s).map).setReloc (requestReloc l r s).reloc := by
  obtain ⟨m, q, h⟩ := requestReloc_shape l r s
  rw [h]
  rfl

/-- Entries sealed in the order in which they stand, the rest of the buffer behind them. -/
theorem sealList_sealedAs {q : Entry → Bool} (hq : ∀ e, q e = true → e.isOpen = true) {s : State}
    (once : (s.wmb.entries.map (·.openOrder)).Nodup) {es post : List Entry}
    (hs : s.wmb.entries = es ++ post) :
    SealedAs q es post s
      (((es.filter q).map (·.openOrder)).foldl (fun u id => sealEntry id u) s) := by
  induction es using List.reverseRecOn generalizing post with
  | nil =>
    rw [List.nil_append] at hs
    refine ⟨by simp [sealedBy, ← hs], by cases s; rfl, fun _ => ⟨rfl, rfl⟩,
      fun _ => AsksFor.of_same rfl rfl fun l => by simp⟩
  | append_singleton es e ih =>
    rw [List.append_assoc] at hs
    have hs' : s.wmb.entries = es ++ e :: post := hs
    have before := ih hs
    generalize hu : ((es.filter q).map (·.openOrder)).foldl (fun u id => sealEntry id u) s = u at before
    have power : u.power = s.power := by rw [before.blocks]; rfl
    by_cases hqe : q e = true
    · have entries : u.wmb.entries = sealedBy q s.wmb.sealCounter es ++ e :: post := by
        rw [before.wmb]; rfl
      have orders : (u.wmb.entries.map (·.openOrder)).Nodup := by
        rw [entries, List.map_append, sealedBy_openOrders, ← List.map_append, ← hs']
        exact once
      have last := sealEntry_at entries orders (hq e hqe)
      have fold : (((es ++ [e]).filter q).map (·.openOrder)).foldl (fun u id => sealEntry id u) s =
          sealEntry e.openOrder u := by
        simp [List.filter_append, hqe, ← hu]
      rw [fold, last]
      have wmb : { u.wmb with
            entries := sealedBy q s.wmb.sealCounter es ++
              { e with stage := .sealed u.wmb.sealCounter } :: post
            sealCounter := u.wmb.sealCounter + 1 } = { s.wmb with
            entries := sealedBy q s.wmb.sealCounter (es ++ [e]) ++ post
            sealCounter := s.wmb.sealCounter + (es ++ [e]).countP q } := by
        rw [sealedBy_append, before.wmb]
        simp [sealedBy, hqe, Nat.add_assoc]
      rw [wmb]
      have flags (hop : s.power.op ≠ .failed) := (before.asks hop).flags e.sector
      split
      next hask =>
        obtain ⟨hop, hb, hr⟩ := hask
        rw [power] at hop
        rw [(flags hop).1] at hb
        rw [(flags hop).2] at hr
        refine ⟨by rw [requestReloc_wmb]; rfl, ?_, fun h => absurd h hop, fun _ => ?_⟩
        · rw [requestReloc_blocks, before.blocks]
          simp only [State.setWmb, State.setMap, State.setReloc]
        · refine (((before.asks hop).of_eq (by rfl) (by rfl)).ask e.sector).congr fun l => ?_
          simp only [List.mem_append, List.mem_singleton, or_and_right, exists_or, exists_eq_left]
          constructor
          · rintro (⟨h1, h2, h3⟩ | rfl)
            · exact ⟨h1, h2, .inl h3⟩
            · exact ⟨hb, hr, .inr ⟨hqe, rfl⟩⟩
          · rintro ⟨h1, h2, h3 | ⟨-, h3⟩⟩
            · exact .inl ⟨h1, h2, h3⟩
            · exact .inr h3.symm
      next hask =>
        refine ⟨rfl, ?_, before.failed, fun hop => ?_⟩
        · rw [before.blocks]
          simp only [State.setWmb, State.setMap, State.setReloc]
        · refine ((before.asks hop).of_eq (by rfl) (by rfl)).congr fun l => ?_
          simp only [List.mem_append, List.mem_singleton, or_and_right, exists_or, exists_eq_left]
          refine and_congr_right fun h1 => and_congr_right fun h2 => ⟨.inl, ?_⟩
          rintro (h3 | ⟨-, rfl⟩)
          · exact h3
          · rw [power, (flags hop).1, (flags hop).2] at hask
            exact absurd ⟨hop, h1, h2⟩ hask
    · have fold : (((es ++ [e]).filter q).map (·.openOrder)).foldl (fun u id => sealEntry id u) s =
          u := by
        simp [List.filter_append, hqe, ← hu]
      rw [fold]
      refine ⟨?_, before.blocks, before.failed, fun hop => (before.asks hop).congr fun l => ?_⟩
      · rw [before.wmb, sealedBy_append]
        simp [sealedBy, hqe]
      · simp [hqe, or_and_right, exists_or]

theorem WmbOrderly.orders_nodup {w : Wmb} (h : WmbOrderly w) : (w.entries.map (·.openOrder)).Nodup :=
  h.rising.imp Nat.ne_of_lt

/-- What sealing the OPEN entries that meet a condition leaves of an orderly buffer. -/
theorem sealWhere_sealedAs {s : State} (hw : WmbOrderly s.wmb) (p : Entry → Bool) :
    SealedAs (fun e => e.isOpen && p e) s.wmb.entries [] s (sealWhere p s) :=
  sealList_sealedAs (fun e h => (Bool.and_eq_true_iff.mp h).1) hw.orders_nodup (by simp)

theorem sealAll_sealedAs {s : State} (hw : WmbOrderly s.wmb) :
    SealedAs Entry.isOpen s.wmb.entries [] s (sealAll s) := by
  have sealed := sealWhere_sealedAs hw fun _ => true
  simp only [Bool.and_true] at sealed
  exact sealed

/-- The buffer with every OPEN entry sealed (R11). -/
def Wmb.allSealed (w : Wmb) : Wmb :=
  { w with
    entries := sealedFrom w.sealCounter w.entries
    sealCounter := w.sealCounter + w.entries.countP Entry.isOpen }

theorem sealAll_wmb {s : State} (hw : WmbOrderly s.wmb) : (sealAll s).wmb = s.wmb.allSealed := by
  rw [(sealAll_sealedAs hw).wmb, List.append_nil, ← sealedFrom_eq]
  rfl

theorem sealAll_asks {s : State} (hw : WmbOrderly s.wmb) (hop : s.power.op ≠ .failed) :
    asksBacking (fun e => e.isOpen = true) s (sealAll s) := (sealAll_sealedAs hw).asks hop

end Sys2Proof.Machine
end

section
/-!
PROOFS. The power monitor's happenings (chapter 10): the two resets, the release of RST# with READY, the
levels of PFAIL#, and FLUSH# with the FLUSH command and the drain.
-/

namespace Sys2Proof.Machine

open Sys2Proof

/-! ### POR -/

section Cuts

variable {d : DieId} {s : State}

theorem cutInProgress_programming {r : Request} {time : Nat}
    (h : (s.dies.get d).state = .programming r time) :
    cutInProgress d s = (s.setMedium (s.medium.cutProgram s.draws r.op)).setDraws (s.draws + 1) := by
  simp only [cutInProgress, h]

theorem cutInProgress_erasing {run : EraseRun} (h : (s.dies.get d).state = .erasing run ∨
    (∃ abandon, (s.dies.get d).state = .held run abandon) ∨
    (∃ r abandon time, (s.dies.get d).state = .heldReading run r abandon time) ∨
    ∃ p abandon time, (s.dies.get d).state = .pausing p (some run) abandon time) :
    cutInProgress d s =
      (s.setMedium (s.medium.cutErase s.draws run.phys)).setDraws (s.draws + 1) := by
  rcases h with h | ⟨_, h⟩ | ⟨_, _, _, h⟩ | ⟨_, _, _, h⟩ <;> simp only [cutInProgress, h]

theorem cutInProgress_other (hprogram : ∀ r time, (s.dies.get d).state ≠ .programming r time)
    (herase : ∀ run, ¬ ((s.dies.get d).state = .erasing run ∨
      (∃ abandon, (s.dies.get d).state = .held run abandon) ∨
      (∃ r abandon time, (s.dies.get d).state = .heldReading run r abandon time) ∨
      ∃ p abandon time, (s.dies.get d).state = .pausing p (some run) abandon time)) :
    cutInProgress d s = s := by
  unfold cutInProgress
  split
  next r time h => exact absurd h (hprogram r time)
  next run h => exact absurd (.inl h) (herase run)
  next run abandon h => exact absurd (.inr (.inl ⟨abandon, h⟩)) (herase run)
  next run r abandon time h => exact absurd (.inr (.inr (.inl ⟨r, abandon, time, h⟩))) (herase run)
  next p run abandon time h => exact absurd (.inr (.inr (.inr ⟨p, abandon, time, h⟩))) (herase run)
  all_goals rfl

end Cuts

/-- The cuts write the medium and draw free values, and nothing else. -/
theorem porValues_cutBoth (s : State) : porValues (cutBoth s) =
    { porValues s with medium := (cutBoth s).medium, draws := (cutBoth s).draws } := by
  obtain ⟨m, n, h⟩ := cutBoth_shape s
  rw [h]
  rfl

/-- Settles O25: POR writes one state, and the cuts act by the state of their die. -/
theorem porGivesItsValues : Obligations.PorGivesItsValues := by
  refine ⟨fun s => ⟨_, rfl, porValues_cutBoth s, fun a ha => ?untouched, fun _ => rfl⟩, ?cuts⟩
  case untouched => exact (cutBoth_under s).bytes a ha
  case cuts =>
    intro s d st erase
    exact ⟨fun r time h => cutInProgress_programming h, fun run h => cutInProgress_erasing h,
      cutInProgress_other⟩

/-! ### RST# asserted -/

theorem regionAt_regionsAfterRst {s t : State} (hs : Table.Sorted s.regions)
    (h : t.regions = regionsAfterRst s.regions) (i : Fin 16) :
    regionAt t i = (regionAt s i).afterRst := by
  have listed := Table.find_filterMap hs
    (f := fun c => if c.2.afterRst = Region.atPor then none else some (c.1, c.2.afterRst))
    (fun c c' hc => by split at hc <;> cases hc; rfl) i.val
  rw [regionAt, Table.read, h, regionsAfterRst, listed, regionAt, Table.read]
  cases Table.find s.regions i.val with
  | none => rfl
  | some r =>
    by_cases hr : r.afterRst = Region.atPor
    · simp [hr]
    · simp [hr]

/-- What RST# writes, with the medium and the free values as the cuts leave them. -/
theorem rstValues_cutBoth (s : State) : rstValues (cutBoth s) =
    { porValues (cutBoth s) with
      power := { (porValues (cutBoth s)).power with rst := true }
      wmb := { (porValues (cutBoth s)).wmb with commitDelay := s.wmb.commitDelay }
      host := { port := portInReset s.host.port, threshold := s.host.threshold }
      regions := regionsAfterRst s.regions
      link := { (porValues (cutBoth s)).link with
        faultAttention := s.link.faultAttention, degradedAttention := s.link.degradedAttention }
      now := s.now } := by
  obtain ⟨m, n, h⟩ := cutBoth_shape s
  rw [h]
  rfl

theorem portInReset_of_held {s : State} {h : HeldCycle} (hs : heldCycle s = some h) :
    portInReset s.host.port = .inReset h.cycle := by
  have bus : cycleOnBus s.host.port = some h.cycle := by
    unfold heldCycle at hs
    unfold cycleOnBus
    split at hs <;> simp_all
  rw [portInReset, bus]

/-- Settles O26: the values of RST# are POR's but for what they name; the cycle on the bus by the state
of the port. -/
theorem rstKeepsItsSettings : Obligations.RstKeepsItsSettings := by
  intro s tables
  have region (i : Fin 16) : regionAt (rstValues (cutBoth s)) i = (regionAt s i).afterRst :=
    regionAt_regionsAfterRst tables.regions.1 (by rw [rstValues_cutBoth]) i
  have port : (rstValues (cutBoth s)).host.port = portInReset s.host.port := by
    rw [rstValues_cutBoth]
  have stays {p q : Port} (hp : s.host.port = p) (hq : portInReset p = q) :
      (rstValues (cutBoth s)).host.port = q := by rw [port, hp, hq]
  refine ⟨rstValues (cutBoth s), porValues (cutBoth s), rfl, rfl, ?_, fun i hf => ?_, fun i hf => ?_,
    fun hp => stays hp rfl, fun h hs => port.trans (portInReset_of_held hs),
    fun c w hp => stays hp rfl, fun c hp => stays hp rfl, fun ask hp => stays hp rfl⟩
  · rw [rstValues_cutBoth]
  · rw [region, Region.afterRst, if_pos hf]
  · rw [region, Region.afterRst, if_neg (by simp [hf])]

/-! ### RST# released and READY -/

theorem dieOf_firstPhys (d : DieId) : dieOf (firstPhys d) = d := by cases d <;> rfl

@[simp] theorem PerDie.get_set_same {α : Type} (x : PerDie α) (d : DieId) (v : α) :
    (x.set d v).get d = v := by cases d <;> rfl

theorem PerDie.get_set_other {α : Type} (x : PerDie α) {d e : DieId} (v : α) (h : e ≠ d) :
    (x.set d v).get e = x.get e := by
  cases d <;> cases e <;> first | rfl | exact absurd rfl h

/-- A read that waits at a die is not lost by the scheduler's choice (R117, R125). -/
theorem Die.settled_keeps_read {die : Die} {r : Request} (hr : r ∈ die.waiting)
    (hread : r.op.isRead = true) :
    r ∈ die.settled.waiting ∨ die.settled.inProgress = some r := by
  have taken {x : Request} : x = r ∨ r ∈ die.waiting.erase x := by
    by_cases hx : x = r
    · exact .inl hx
    · exact .inr ((List.mem_erase_of_ne (Ne.symm hx)).mpr hr)
  unfold Die.settled
  split
  · exact .inl hr
  · split
    next =>
      split
      next x _ =>
        rcases taken (x := x) with rfl | h
        · right
          unfold DieOp.isRead at hread
          simp only [Die.takes, Die.inProgress, takenState]
          cases hop : x.op <;> simp_all
        · exact .inl h
      next => exact .inl hr
    next =>
      split
      · exact .inl hr
      · split
        next x _ =>
          rcases taken (x := x) with rfl | h
          · exact .inr rfl
          · exact .inl h
        next => exact .inl hr
    next => split <;> exact .inl hr
    all_goals exact .inl hr

/-- The condition of the scanner's beginning on a die that is ready (R156). -/
def scanWaits (s : State) (d : DieId) : Prop :=
  s.power.op = .starting ∧ s.power.rst = false ∧ s.scan.progress.get d = .waiting ∧
    (s.dies.get d).state = .idle

theorem scanIfReady_of_waits {s : State} {d : DieId} (h : scanWaits s d) :
    scanIfReady d s = startScan d s := if_pos h

theorem scanIfReady_of_not {s : State} {d : DieId} (h : ¬ scanWaits s d) : scanIfReady d s = s :=
  if_neg h

theorem startScan_eq (d : DieId) (s : State) : startScan d s = { s with
    scan := { s.scan with progress := s.scan.progress.set d (.reading (firstPhys d)) }
    dies := s.dies.set d { s.dies.get d with waiting := (s.dies.get d).waiting ++
      [⟨.scanner, .readTag (firstPhys d), s.now⟩] } } := by
  cases d <;> rfl

/-- The scanner's beginning writes the scan's progress and the schedulers. -/
theorem scanIfReady_blocks (d : DieId) (s : State) : scanIfReady d s = { s with
    scan := { s.scan with progress := (scanIfReady d s).scan.progress }
    dies := (scanIfReady d s).dies } := by
  by_cases h : scanWaits s d
  · rw [scanIfReady_of_waits h, startScan_eq]
  · rw [scanIfReady_of_not h]

theorem scanIfReady_other {d e : DieId} (h : e ≠ d) (s : State) :
    (scanIfReady d s).scan.progress.get e = s.scan.progress.get e ∧
      (scanIfReady d s).dies.get e = s.dies.get e := by
  by_cases hw : scanWaits s d
  · rw [scanIfReady_of_waits hw, startScan_eq]
    exact ⟨PerDie.get_set_other _ _ h, PerDie.get_set_other _ _ h⟩
  · rw [scanIfReady_of_not hw]
    exact ⟨rfl, rfl⟩

/-- The scanner's beginning on both dies. -/
def scanBoth (s : State) : State := scanIfReady .die1 (scanIfReady .die0 s)

theorem scanBoth_blocks (s : State) : scanBoth s = { s with
    scan := { s.scan with progress := (scanBoth s).scan.progress }, dies := (scanBoth s).dies } := by
  rw [scanBoth, scanIfReady_blocks .die1, scanIfReady_blocks .die0]

theorem scanBoth_of_not_starting {s : State} (h : s.power.op ≠ .starting) : scanBoth s = s := by
  have none (d : DieId) : scanIfReady d s = s := scanIfReady_of_not fun hw => h hw.1
  rw [scanBoth, none, none]

/-- Each die's scan begins by its own state. -/
theorem scanBoth_get (s : State) (d : DieId) :
    (scanBoth s).scan.progress.get d = (scanIfReady d s).scan.progress.get d ∧
      (scanBoth s).dies.get d = (scanIfReady d s).dies.get d := by
  have waits : scanWaits (scanIfReady .die0 s) .die1 ↔ scanWaits s .die1 := by
    unfold scanWaits
    rw [(scanIfReady_other (e := .die1) (by decide) s).1,
      (scanIfReady_other (e := .die1) (by decide) s).2, scanIfReady_blocks]
  cases d with
  | die0 => exact scanIfReady_other (by decide) _
  | die1 =>
    have same := scanIfReady_other (d := .die0) (e := .die1) (by decide) s
    by_cases hw : scanWaits s .die1
    · rw [scanBoth, scanIfReady_of_waits hw, scanIfReady_of_waits (waits.mpr hw), startScan_eq,
        startScan_eq, same.2]
      refine ⟨by simp only [PerDie.get_set_same], ?_⟩
      rw [scanIfReady_blocks]
      simp only [PerDie.get_set_same]
    · rw [scanBoth, scanIfReady_of_not hw, scanIfReady_of_not (mt waits.mp hw)]
      exact same

/-- What the release of RST# makes of the port (R131, R142, R132). -/
def portReleased (s : State) : State :=
  match s.host.port with
  | .inReset c => handleArrival (newCycle c) (setPort .idle s)
  | .idle | .completed _ _ | .reading _ _ | .writing _ | .holding _ => s

theorem exec_rstReleased {s : State} (h : s.power.rst = true) :
    exec .rstReleased s =
      .next (settle (scanBoth (portReleased (s.setPower { s.power with rst := false })))) := by
  have released : execRstReleased s = .next (settle (releaseRst s)) :=
    congrArg Host.Outcome.next (if_pos h)
  refine released.trans ?_
  unfold releaseRst portReleased scanBoth
  rfl

theorem portReleased_inReset {s : State} {c : HostCycle} (h : s.host.port = .inReset c) :
    portReleased s = handleArrival (newCycle c) (setPort .idle s) := by
  simp only [portReleased, h]

theorem portReleased_other {s : State} (h : ∀ c, s.host.port ≠ .inReset c) : portReleased s = s := by
  unfold portReleased
  split
  next c hp => exact absurd hp (h c)
  all_goals rfl

section Starting

variable {s : State} (hop : s.power.op = .starting)
include hop

theorem portReleased_starting : portReleased s = s.setHost (portReleased s).host ∧
    (∀ c, s.host.port = .inReset c →
      (portReleased s).host = { s.host with port := .holding ⟨c, 0, false⟩ }) ∧
    ((∀ c, s.host.port ≠ .inReset c) → (portReleased s).host = s.host) := by
  by_cases hp : ∃ c, s.host.port = .inReset c
  · obtain ⟨c, hp⟩ := hp
    rw [portReleased_inReset hp, handleArrival_starting (s := setPort .idle s) hop]
    refine ⟨rfl, fun c' hc => ?_, fun h => absurd hp (h c)⟩
    cases hp.symm.trans hc
    rfl
  · have other := fun c h => hp ⟨c, h⟩
    rw [portReleased_other other]
    exact ⟨rfl, fun c h => absurd h (other c), fun _ => rfl⟩

end Starting

theorem portReleased_failed {s : State} (hop : s.power.op = .failed) :
    portReleased s = { s with host := (portReleased s).host, link := (portReleased s).link } ∧
    (∀ c, s.host.port = .inReset c →
      (portReleased s).host =
        { s.host with port := .completed c (if c.kind = .read then some 0xFFFF else none) } ∧
      (c.low = true ∨ c.high = true → (portReleased s).link =
        (countUp (if c.kind = .read then .hostReads else .refusedWrites) 1 s).link) ∧
      (c.low = false → c.high = false → (portReleased s).link = s.link)) ∧
    ((∀ c, s.host.port ≠ .inReset c) →
      (portReleased s).host = s.host ∧ (portReleased s).link = s.link) := by
  by_cases hp : ∃ c, s.host.port = .inReset c
  · obtain ⟨c, hp⟩ := hp
    have unique {c' : HostCycle} (hc : s.host.port = .inReset c') : c' = c := by
      injection hc.symm.trans hp
    rw [portReleased_inReset hp]
    by_cases lane : c.low = true ∨ c.high = true
    · have dark : ¬ (c.low = false ∧ c.high = false) := by
        rintro ⟨hl, hh⟩; simp [hl, hh] at lane
      cases hk : c.kind with
      | read =>
        rw [handleArrival_failed_read (s := setPort .idle s) (x := newCycle c) lane hop hk]
        refine ⟨rfl, fun c' hc => ?_, fun h => absurd hp (h c)⟩
        obtain rfl := unique hc
        rw [if_pos hk, if_pos hk]
        exact ⟨rfl, fun _ => rfl, fun hl hh => absurd ⟨hl, hh⟩ dark⟩
      | write data =>
        rw [handleArrival_failed_write (s := setPort .idle s) (x := newCycle c) lane hop hk]
        refine ⟨rfl, fun c' hc => ?_, fun h => absurd hp (h c)⟩
        obtain rfl := unique hc
        rw [if_neg (by simp [hk]), if_neg (by simp [hk])]
        exact ⟨rfl, fun _ => rfl, fun hl hh => absurd ⟨hl, hh⟩ dark⟩
    · have hl : c.low = false := by simpa using fun h => lane (.inl h)
      have hh : c.high = false := by simpa using fun h => lane (.inr h)
      rw [handleArrival_noLane (s := setPort .idle s) (x := newCycle c) (by simp [setPort, hop]) hl hh]
      refine ⟨rfl, fun c' hc => ?_, fun h => absurd hp (h c)⟩
      obtain rfl := unique hc
      exact ⟨rfl, fun h => absurd h lane, fun _ _ => rfl⟩
  · have other := fun c h => hp ⟨c, h⟩
    rw [portReleased_other other]
    exact ⟨rfl, fun c h => absurd h (other c), fun _ => ⟨rfl, rfl⟩⟩

/-- The schedulers write the dies, and the medium where they cut an erase. -/
theorem settle_blocks (s : State) : settle s = { s with
    dies := (settle s).dies, medium := (settle s).medium, draws := (settle s).draws } := by
  obtain ⟨ds, m, n, h⟩ := settle_shape s
  rw [h]
  rfl

@[simp] theorem settle_host (s : State) : (settle s).host = s.host := by rw [settle_blocks]

@[simp] theorem settle_scan (s : State) : (settle s).scan = s.scan := by rw [settle_blocks]

/-- A scan begun has its READ TAG outstanding at the die (R156). -/
theorem asked_of_waiting {s : State} {d : DieId} {who : Requester} {op : DieOp} {now : Nat}
    (hop : s.power.op ≠ .failed) (hd : dieOf op.phys = d) (hread : op.isRead = true)
    (h : ⟨who, op, now⟩ ∈ (s.dies.get d).waiting) : asked (settle s) who op := by
  subst hd
  refine ⟨⟨who, op, now⟩, rfl, rfl, ?_⟩
  rw [settle_get hop]
  exact Die.settled_keeps_read h hread

theorem exec_dieReadyAfterReset_awaited {s : State} {d : DieId} {time : Nat}
    (hst : (s.dies.get d).state = .resetting .partReset time false)
    (hoff : (s.dies.get d).offline = false) :
    exec (.dieReadyAfterReset d) s = .next (if s.power.op = .failed then readyDisregarded d s
      else settle (scanIfReady d (setDieState d .idle s))) := by
  change Host.Outcome.next (dieReady d ResetCause.isPartReset s) = _
  simp only [dieReady, readyAwaited, hst, hoff]
  rfl

theorem exec_dieReadyAfterReset_other {s : State} {d : DieId}
    (h : (∀ time, (s.dies.get d).state ≠ .resetting .partReset time false) ∨
      (s.dies.get d).offline = true) : exec (.dieReadyAfterReset d) s = .next s := by
  refine congrArg Host.Outcome.next (?_ : dieReady d ResetCause.isPartReset s = s)
  unfold dieReady
  split
  next cause time answered hst =>
    refine if_neg fun hp => ?_
    simp only [readyAwaited, hst, Bool.and_eq_true, Bool.not_eq_true'] at hp
    obtain ⟨hcause, rfl, hoff⟩ := hp
    cases cause <;> cases hcause
    rcases h with h | h
    · exact h time hst
    · rw [hoff] at h; cases h
  all_goals rfl

/-- Settles O27: the release of RST# by the operating state, the port's part and each die's scan apart;
READY by whether it is awaited. -/
theorem scanBeginsOnReadyDies : Obligations.ScanBeginsOnReadyDies := by
  refine ⟨fun s => ⟨fun hrst => ?high, fun hrst hop => ?starting, fun hrst hop => ?failed⟩,
    fun s d time => ⟨fun hst hoff => ⟨fun hop => ?disregarded, fun hop hrst hwait => ?scans,
      fun hop hnot => ?idles⟩, exec_dieReadyAfterReset_other⟩⟩
  case high => exact congrArg Host.Outcome.next (if_neg (by simp [hrst]))
  case starting =>
    obtain ⟨port, onBus, offBus⟩ :=
      portReleased_starting (s := s.setPower { s.power with rst := false }) hop
    generalize hv : portReleased (s.setPower { s.power with rst := false }) = v
      at port onBus offBus
    have power : v.power = { s.power with rst := false } := by rw [port]; rfl
    have scan : v.scan = s.scan := by rw [port]; rfl
    have dies : v.dies = s.dies := by rw [port]; rfl
    have now : v.now = s.now := by rw [port]; rfl
    have host : (settle (scanBoth v)).host = v.host := by rw [settle_host, scanBoth_blocks]
    have progress (d : DieId) : (settle (scanBoth v)).scan.progress.get d =
        (scanIfReady d v).scan.progress.get d := by rw [settle_scan, (scanBoth_get v d).1]
    refine ⟨settle (scanBoth v), scanBoth v, by rw [exec_rstReleased hrst, hv], rfl, ?_,
      fun c hc => host.trans (onBus c hc), fun hc => host.trans (offBus hc), ?_, fun d =>
        ⟨fun hidle hwait => ?_, fun hnot => ?_⟩⟩
    · rw [host, settle_scan, scanBoth_blocks, port]
      rfl
    · rw [settle_scan, scanBoth_blocks, scan]
    · have waits : scanWaits v d := ⟨by rw [power]; exact hop, by rw [power], by rw [scan, hwait],
        by rw [dies, hidle]⟩
      have die : (scanBoth v).dies.get d = { s.dies.get d with waiting := (s.dies.get d).waiting ++
          [⟨.scanner, .readTag (firstPhys d), s.now⟩] } := by
        rw [(scanBoth_get v d).2, scanIfReady_of_waits waits, startScan_eq, dies, now]
        exact PerDie.get_set_same _ _ _
      refine ⟨?_, ?_, die⟩
      · rw [progress, scanIfReady_of_waits waits, startScan_eq]
        exact PerDie.get_set_same _ _ _
      · refine asked_of_waiting (d := d) (now := s.now) ?_ (dieOf_firstPhys d) rfl (by simp [die])
        rw [scanBoth_blocks, power, hop]
        decide
    · have rests : ¬ scanWaits v d := by
        rintro ⟨-, -, hwait, hidle⟩
        rw [scan] at hwait
        rw [dies] at hidle
        exact hnot.elim (· hidle) (· hwait)
      rw [progress, (scanBoth_get v d).2, scanIfReady_of_not rests, scan, dies]
      exact ⟨rfl, rfl⟩
  case failed =>
    obtain ⟨port, onBus, offBus⟩ :=
      portReleased_failed (s := s.setPower { s.power with rst := false }) hop
    generalize hv : portReleased (s.setPower { s.power with rst := false }) = v
      at port onBus offBus
    have power : v.power.op = .failed := by rw [port]; exact hop
    refine ⟨v, ?_, port, onBus, offBus⟩
    rw [exec_rstReleased hrst, hv, scanBoth_of_not_starting (by rw [power]; decide),
      settle_failed power]
  case disregarded =>
    rw [exec_dieReadyAfterReset_awaited hst hoff, if_pos hop]
    simp only [readyDisregarded, hst]
  case scans =>
    have waits : scanWaits (setDieState d .idle s) d :=
      ⟨hop, hrst, hwait, by rw [setDieState_get_same]⟩
    rw [exec_dieReadyAfterReset_awaited hst hoff, if_neg (by simp [hop]), scanIfReady_of_waits waits]
    rfl
  case idles =>
    have rests : ¬ scanWaits (setDieState d .idle s) d := fun ⟨h1, h2, h3, _⟩ =>
      hnot.elim (· h1) fun h => h.elim (fun h => Bool.noConfusion (h.symm.trans h2)) (· h3)
    rw [exec_dieReadyAfterReset_awaited hst hoff, if_neg hop, scanIfReady_of_not rests]

/-! ### PFAIL# asserted -/

/-- What the entry into POWERDOWN makes of a slot and its die (R108, R128). -/
structure PowersDown (x : Slot) (die : Die) (x' : Slot) (die' : Die) : Prop where
  rests : (∀ i, x ≠ .erasing i) → x' = x
  withdrawn : ∀ i, x = .erasing i → die.startWaits = true → x' = .idle ∧ die'.startWaits = false
  begun : ∀ i, x = .erasing i → die.startWaits = false → x' = .erasing i ∧
    (∀ run, die.state = .erasing run ∨ (∃ abandon, die.state = .held run abandon) →
      die'.state = .resetting .abandonment 0 false) ∧
    (∀ p run abandon time, die.state = .pausing p (some run) abandon time →
      die'.state = .pausing p (some run) true time) ∧
    (∀ run r abandon time, die.state = .heldReading run r abandon time →
      die'.state = .heldReading run r true time)

/-- A physical sector stands in QUEUED FOR ERASE, with its record in the queue (R37). -/
def queuedForErase (s : State) (p : Phys) (n : EraseCount) : Prop :=
  membershipOf s p = some .queuedForErase ∧ ⟨p, n⟩ ∈ s.acct.eraseQueue

theorem knownCount_moveTo (m : Membership) (p q : Phys) (s : State) :
    knownCount (moveTo m p s) q = knownCount s q := by
  by_cases h : q = p
  · subst h
    rw [knownCount, moveTo_rec]
    rfl
  · rw [knownCount, moveTo_rec_other m s h, knownCount]

theorem joinEraseQueue_queued (p : Phys) (s : State) :
    queuedForErase (joinEraseQueue p s) p (knownCount s p) :=
  ⟨congrArg (Option.map PhysRec.membership) (moveTo_rec .queuedForErase p s),
    List.mem_append_right _ (List.mem_singleton_self _)⟩

theorem joinEraseQueue_keeps_queued {p q : Phys} {n : EraseCount} {s : State}
    (h : queuedForErase s q n) : queuedForErase (joinEraseQueue p s) q n := by
  obtain ⟨member, listed⟩ := h
  refine ⟨?_, List.mem_append_left _ listed⟩
  by_cases hq : q = p
  · subst hq
    exact (joinEraseQueue_queued q s).1
  · exact (congrArg (Option.map PhysRec.membership) (moveTo_rec_other .queuedForErase s hq)).trans
      member

theorem joinEraseQueue_knownCount (p q : Phys) (s : State) :
    knownCount (joinEraseQueue p s) q = knownCount s q := knownCount_moveTo _ p q s

section Slot

variable {s : State} {d : DieId}

theorem slotPowersDown_of_other (h : ∀ i, s.erase.slots.get d ≠ .erasing i) :
    slotPowersDown d s = s := by
  unfold slotPowersDown
  split
  next i hi => exact absurd hi (h i)
  all_goals rfl

theorem slotPowersDown_of_waiting {i : SlotItems} (h : s.erase.slots.get d = .erasing i)
    (hw : (s.dies.get d).startWaits = true) :
    slotPowersDown d s = slotRejoins d i (setDie d { s.dies.get d with
      waiting := (s.dies.get d).waiting.filter fun r => !r.isEraseStart } s) := by
  simp only [slotPowersDown, h, hw, if_true]

theorem slotPowersDown_of_begun {i : SlotItems} (h : s.erase.slots.get d = .erasing i)
    (hw : (s.dies.get d).startWaits = false) : slotPowersDown d s = abandonErase d s := by
  simp [slotPowersDown, h, hw]

theorem abandonErase_blocks (d : DieId) (s : State) : abandonErase d s = { s with
    dies := (abandonErase d s).dies, medium := (abandonErase d s).medium
    draws := (abandonErase d s).draws } := by
  have reset (cause : ResetCause) : dieReset d cause s = { s with
      dies := (dieReset d cause s).dies, medium := (dieReset d cause s).medium
      draws := (dieReset d cause s).draws } := by
    obtain ⟨ds, m, n, h⟩ := dieReset_shape d cause s
    rw [h]; rfl
  unfold abandonErase
  split
  · exact reset _
  · exact reset _
  all_goals rfl

theorem slotPowersDown_blocks (d : DieId) (s : State) : slotPowersDown d s = { s with
    acct := (slotPowersDown d s).acct
    erase := { s.erase with slots := (slotPowersDown d s).erase.slots }
    dies := (slotPowersDown d s).dies, medium := (slotPowersDown d s).medium
    draws := (slotPowersDown d s).draws } := by
  unfold slotPowersDown
  split
  · split
    · rfl
    · rw [abandonErase_blocks]
  all_goals rfl

theorem abandonErase_other {e : DieId} (h : e ≠ d) (s : State) :
    (abandonErase d s).dies.get e = s.dies.get e := by
  have reset (cause : ResetCause) : (dieReset d cause s).dies.get e = s.dies.get e := by
    obtain ⟨m, n, hcut⟩ := cutInProgress_shape d s
    rw [dieReset, setDieState_get_other _ _ h, hcut]
    rfl
  unfold abandonErase
  split
  · exact reset _
  · exact reset _
  · exact setDieState_get_other _ _ h
  · exact setDieState_get_other _ _ h
  all_goals rfl

/-- A slot acts on its own die, and queues no other sector away. -/
theorem slotPowersDown_other {e : DieId} (h : e ≠ d) (s : State) :
    (slotPowersDown d s).erase.slots.get e = s.erase.slots.get e ∧
      (slotPowersDown d s).dies.get e = s.dies.get e := by
  unfold slotPowersDown
  split
  · split
    · exact ⟨PerDie.get_set_other _ _ h, setDie_get_other _ _ h⟩
    · exact ⟨by rw [abandonErase_blocks], abandonErase_other h s⟩
  all_goals exact ⟨rfl, rfl⟩

theorem slotPowersDown_knownCount (d : DieId) (s : State) (p : Phys) :
    knownCount (slotPowersDown d s) p = knownCount s p := by
  unfold slotPowersDown
  split
  · split
    · exact joinEraseQueue_knownCount _ _ _
    · rw [abandonErase_blocks]; rfl
  all_goals rfl

theorem slotPowersDown_keeps_queued (d : DieId) {s : State} {p : Phys} {n : EraseCount}
    (h : queuedForErase s p n) : queuedForErase (slotPowersDown d s) p n := by
  unfold slotPowersDown
  split
  · split
    · exact joinEraseQueue_keeps_queued (s := setDie d _ s) h
    · rw [abandonErase_blocks]; exact h
  all_goals exact h

/-- The slot's own die. -/
theorem slotPowersDown_same (d : DieId) (s : State) :
    PowersDown (s.erase.slots.get d) (s.dies.get d) ((slotPowersDown d s).erase.slots.get d)
      ((slotPowersDown d s).dies.get d) := by
  refine ⟨fun h => by rw [slotPowersDown_of_other h], fun i h hw => ?_, fun i h hw => ?_⟩
  · rw [slotPowersDown_of_waiting h hw]
    refine ⟨PerDie.get_set_same _ _ _, ?_⟩
    refine (congrArg Die.startWaits (setDie_get_same d _ s)).trans ?_
    simp [Die.startWaits]
  · rw [slotPowersDown_of_begun h hw]
    refine ⟨by rw [abandonErase_blocks]; exact h, fun run hst => ?_, fun p run ab time hst => ?_,
      fun run r ab time hst => ?_⟩
    · have resets : abandonErase d s = dieReset d .abandonment s := by
        rcases hst with hst | ⟨_, hst⟩ <;> simp only [abandonErase, hst]
      rw [resets, dieReset_get_same]
      rfl
    · simp only [abandonErase, hst, setDieState_get_same, Option.isSome_some]
    · simp only [abandonErase, hst, setDieState_get_same]

theorem slotPowersDown_queued {i : SlotItems} (h : s.erase.slots.get d = .erasing i)
    (hw : (s.dies.get d).startWaits = true) :
    queuedForErase (slotPowersDown d s) i.phys (knownCount s i.phys) := by
  rw [slotPowersDown_of_waiting h hw]
  exact joinEraseQueue_queued i.phys (setDie d _ s)

end Slot

/-- Both slots at the entry to POWERDOWN. -/
def slotsPowerDown (s : State) : State := slotPowersDown .die1 (slotPowersDown .die0 s)

theorem slotsPowerDown_blocks (s : State) : slotsPowerDown s = { s with
    acct := (slotsPowerDown s).acct
    erase := { s.erase with slots := (slotsPowerDown s).erase.slots }
    dies := (slotsPowerDown s).dies, medium := (slotsPowerDown s).medium
    draws := (slotsPowerDown s).draws } := by
  rw [slotsPowerDown, slotPowersDown_blocks .die1, slotPowersDown_blocks .die0]

theorem slotsPowerDown_get (s : State) (d : DieId) :
    PowersDown (s.erase.slots.get d) (s.dies.get d) ((slotsPowerDown s).erase.slots.get d)
      ((slotsPowerDown s).dies.get d) := by
  cases d with
  | die0 =>
    obtain ⟨slot, die⟩ := slotPowersDown_other (d := .die1) (e := .die0) (by decide)
      (slotPowersDown .die0 s)
    rw [slotsPowerDown, slot, die]
    exact slotPowersDown_same .die0 s
  | die1 =>
    obtain ⟨slot, die⟩ := slotPowersDown_other (d := .die0) (e := .die1) (by decide) s
    rw [← slot, ← die]
    exact slotPowersDown_same .die1 _

theorem slotsPowerDown_queued {s : State} {d : DieId} {i : SlotItems}
    (h : s.erase.slots.get d = .erasing i) (hw : (s.dies.get d).startWaits = true) :
    queuedForErase (slotsPowerDown s) i.phys (knownCount s i.phys) := by
  cases d with
  | die0 => exact slotPowersDown_keeps_queued _ (slotPowersDown_queued h hw)
  | die1 =>
    obtain ⟨slot, die⟩ := slotPowersDown_other (d := .die0) (e := .die1) (by decide) s
    rw [← slot] at h
    rw [← die] at hw
    have queued := slotPowersDown_queued h hw
    rwa [slotPowersDown_knownCount] at queued

/-- No scheduler adds a request. -/
theorem Die.settled_waiting {die : Die} {r : Request} (h : r ∈ die.settled.waiting) :
    r ∈ die.waiting := by
  unfold Die.settled at h
  split at h
  · exact h
  · split at h
    next => split at h; exacts [List.mem_of_mem_erase h, h]
    next =>
      split at h
      · exact h
      · split at h; exacts [List.mem_of_mem_erase h, h]
    next => split at h <;> exact h
    all_goals exact h

theorem Die.settled_startWaits {die : Die} (h : die.startWaits = false) :
    die.settled.startWaits = false := by
  rw [Die.startWaits, List.any_eq_false] at h ⊢
  exact fun r hr => h r (Die.settled_waiting hr)

theorem PowersDown.settled {x x' : Slot} {die die' : Die} (h : PowersDown x die x' die') :
    PowersDown x die x' die'.settled := by
  have busy {st : DieState} (hst : die'.state = st) (hidle : st ≠ .idle)
      (hne : ∀ run, st ≠ .erasing run ∧ ∀ abandon, st ≠ .held run abandon) :
      die'.settled.state = st := by
    rw [Die.settled_busy (by rw [hst]; exact hidle) (by rw [hst]; exact hne), hst]
  refine ⟨h.rests, fun i hx hw => ?_, fun i hx hw => ?_⟩
  · obtain ⟨slot, start⟩ := h.withdrawn i hx hw
    exact ⟨slot, Die.settled_startWaits start⟩
  · obtain ⟨slot, resets, pausing, reading⟩ := h.begun i hx hw
    exact ⟨slot, fun run hst => busy (resets run hst) nofun fun _ => ⟨nofun, nofun⟩,
      fun p run ab time hst => busy (pausing p run ab time hst) nofun fun _ => ⟨nofun, nofun⟩,
      fun run r ab time hst => busy (reading run r ab time hst) nofun fun _ => ⟨nofun, nofun⟩⟩

theorem powerdown_after {s v u t : State} {p : Power} {w : Wmb} {m : Table MapEntry} {r : Relocation}
    {a : Accounting} {x : PerDie Slot} {ds es : PerDie Die} {m1 m2 : Memory} {n1 n2 : Nat}
    (hv : v = (((s.setPower p).setWmb w).setMap m).setReloc r)
    (hu : u = { v with
      acct := a, erase := { v.erase with slots := x }, dies := ds, medium := m1, draws := n1 })
    (ht : t = { u with dies := es, medium := m2, draws := n2 }) :
    t = { s with
      power := p, wmb := w, map := m, acct := a, reloc := r, erase := { s.erase with slots := x }
      dies := es, medium := m2, draws := n2 } := by
  simp only [ht, hu, hv, State.setPower, State.setWmb, State.setMap, State.setReloc]

/-- Settles O28: the sealing, the two slots and the schedulers' choice, each by its own lemma. -/
theorem pfailEntersPowerdown : Obligations.PfailEntersPowerdown := by
  intro s
  refine ⟨fun hop => congrArg Host.Outcome.next (if_neg hop), fun hop hw => ?_⟩
  let entered : State := s.setPower { s.power with op := .powerdown, pfail := true }
  have exec_eq : exec .pfailAsserted s = .next (settle (slotsPowerDown (sealAll entered))) :=
    congrArg Host.Outcome.next (if_pos hop)
  have sealed := sealAll_sealedAs (s := entered) hw
  have wmb := sealAll_wmb (s := entered) hw
  have asks := sealAll_asks (s := entered) hw OpState.noConfusion
  generalize hv : sealAll entered = v at exec_eq sealed wmb asks
  have blocks := sealed.blocks
  have acct : v.acct = s.acct := by rw [blocks]; rfl
  have erase : v.erase = s.erase := by rw [blocks]; rfl
  have dies : v.dies = s.dies := by rw [blocks]; rfl
  have shape := settle_blocks (slotsPowerDown v)
  have power : (slotsPowerDown v).power.op ≠ .failed := by
    rw [slotsPowerDown_blocks, blocks]
    exact OpState.noConfusion
  have each (d : DieId) := (slotsPowerDown_get v d).settled
  generalize ht : settle (slotsPowerDown v) = t at exec_eq shape
  have slots : t.erase.slots = (slotsPowerDown v).erase.slots := by rw [shape]
  have acct' : t.acct = (slotsPowerDown v).acct := by rw [shape]
  have get (d : DieId) : t.dies.get d = ((slotsPowerDown v).dies.get d).settled := by
    rw [← ht, settle_get power]
  have map : t.map = v.map := by rw [shape, slotsPowerDown_blocks]
  have reloc : t.reloc = v.reloc := by rw [shape, slotsPowerDown_blocks]
  refine ⟨t, exec_eq, ?_, (AsksFor.of_eq asks map reloc).start_eq rfl rfl, fun d => ?_⟩
  · have flat := powerdown_after blocks (slotsPowerDown_blocks v) shape
    rw [wmb, ← map, ← reloc, ← acct', ← slots] at flat
    exact flat
  · have own := each d
    rw [← get, ← slots, erase, dies] at own
    refine ⟨own.rests, fun i hi hst => ?_, own.begun⟩
    obtain ⟨slot, start⟩ := own.withdrawn i hi hst
    have queued := slotsPowerDown_queued (s := v) (d := d) (i := i) (by rw [erase, hi])
      (by rw [dies, hst])
    unfold queuedForErase membershipOf at queued
    rw [← acct', knownCount, acct] at queued
    exact ⟨slot, start, queued.1, queued.2⟩

/-! ### PFAIL# released -/

theorem requestReloc_engine (l : Sector) (reason : RelocReason) (s : State) :
    (requestReloc l reason s).reloc.engine = s.reloc.engine := by
  unfold requestReloc
  dsimp only
  split <;> rfl

theorem AsksAfter.engine {s t : State} (h : AsksAfter s t) :
    t.reloc.engine = s.reloc.engine := by
  obtain ⟨ls, w, rfl⟩ := h
  induction ls using List.reverseRecOn with
  | nil => rfl
  | append_singleton ls l ih => rw [List.foldl_append, List.foldl_cons, List.foldl_nil,
      requestReloc_engine, ih]

theorem writePastRegion_engine (h : HeldCycle) (data : HostWord) (s : State) :
    (writePastRegion h data s).reloc.engine = s.reloc.engine := by
  unfold writePastRegion takeOrHold
  split
  · rw [refuseDegraded, record_eq]; rfl
  · split
    · split
      next taken htaken => exact (AsksAfter.of_presentWrite htaken).engine
      next => rfl
    · rfl

theorem presentHeldWrite_engine (s : State) :
    (presentHeldWrite s).reloc.engine = s.reloc.engine := by
  unfold presentHeldWrite
  split
  · split
    · exact writePastRegion_engine _ _ _
    · rfl
  · rfl

theorem relocationResumes_of_fold {s : State} {j : Job} {t : Phys} {g : Gen}
    (h : s.reloc.engine = .claiming j t g true) : relocationResumes s = foldAndCopy j t g s := by
  simp only [relocationResumes, h]

theorem relocationResumes_of_wait {s : State} {j : Job} (h : s.reloc.engine = .awaitingSpare j)
    (hf : foldedList s = []) : relocationResumes s = chooseTarget j s := by
  simp [relocationResumes, h, hf]

theorem relocationResumes_of_other {s : State}
    (hc : ∀ j t g, s.reloc.engine ≠ .claiming j t g true)
    (hw : (∀ j, s.reloc.engine ≠ .awaitingSpare j) ∨ foldedList s ≠ []) :
    relocationResumes s = s := by
  unfold relocationResumes
  split
  next j t g h => exact absurd h (hc j t g)
  next j h => exact if_neg (by simpa using hw.resolve_left fun hw => hw j h)
  all_goals rfl

/-- Settles O29: the port's held write first, then the engine by its state. -/
theorem pfailReleaseReturns : Obligations.PfailReleaseReturns := by
  intro s
  refine ⟨fun hop => congrArg Host.Outcome.next (if_neg hop), fun hop => ?_⟩
  let entered : State := { s with power := { s.power with op := .running, pfail := false } }
  have engine : (presentHeldWrite entered).reloc.engine = s.reloc.engine :=
    presentHeldWrite_engine entered
  have exec_eq : exec .pfailReleased s =
      .next (settle (relocationResumes (presentHeldWrite entered))) :=
    congrArg Host.Outcome.next (if_pos hop)
  refine ⟨presentHeldWrite entered, rfl, fun j t g h => ?_, fun j h hf => ?_, fun hc hw => ?_⟩
  · rw [exec_eq, relocationResumes_of_fold (engine.trans h)]
    rfl
  · rw [exec_eq, relocationResumes_of_wait (engine.trans h) hf]
  · rw [exec_eq, relocationResumes_of_other (by rw [engine]; exact hc) (by rw [engine]; exact hw)]

/-! ### FLUSH# and the FLUSH command -/

/-- The sealing leaves the flush boundary alone and does not read it. -/
theorem sealEntry_setBoundary (id : Nat) (b : Option Nat) (s : State) :
    sealEntry id (s.setWmb { s.wmb with boundary := b }) =
      (sealEntry id s).setWmb { (sealEntry id s).wmb with boundary := b } := by
  unfold sealEntry
  dsimp only [setWmb_wmb, setWmb_power]
  split
  · rfl
  next e _ =>
    have same (w : Wmb) : mapEntry (s.setWmb w) e.sector = mapEntry s e.sector := rfl
    simp only [same]
    split
    · rw [requestReloc_setWmb, requestReloc_wmb]
      rfl
    · rfl

theorem sealAll_setBoundary (b : Option Nat) (s : State) :
    sealAll (s.setWmb { s.wmb with boundary := b }) =
      (sealAll s).setWmb { (sealAll s).wmb with boundary := b } := by
  unfold sealAll sealWhere
  dsimp only [setWmb_wmb]
  generalize (s.wmb.entries.filter fun e => e.isOpen && true).map (·.openOrder) = ids
  induction ids generalizing s with
  | nil => rfl
  | cons id rest ih => rw [List.foldl_cons, List.foldl_cons, sealEntry_setBoundary, ih]

theorem sealAll_of_empty {s : State} (h : s.wmb.entries = []) : sealAll s = s := by
  simp [sealAll, sealWhere, h]

theorem exec_flush {s : State} (hop : s.power.op = .running ∨ s.power.op = .powerdown)
    (hready : commandInProgress s = false) : exec .flush s = .next (acceptFlush s) := by
  change Host.Outcome.next (unlessBusy 0x02 acceptFlush s) = _
  rw [unlessBusy, unlessRefused, stateRefusal_of_serving hop]
  simp [hready]

theorem drained_iff {w : Wmb} {b : Nat} (h : w.boundary = some b) :
    drained w = true ↔ ∀ e ∈ w.entries, b ≤ e.openOrder := by
  simp [drained, h]

theorem acceptFlush_of_drained {s : State}
    (h : drained (sealAll (s.setWmb { s.wmb with boundary := some s.wmb.openCounter })).wmb = true) :
    acceptFlush s = answerLong .flush 0x02 true ((sealAll s).setWmb
      { (sealAll s).wmb with boundary := none }) := by
  unfold acceptFlush
  dsimp only
  rw [if_pos h, sealAll_setBoundary]
  rfl

theorem acceptFlush_of_waiting {s : State}
    (h : ¬ drained (sealAll (s.setWmb { s.wmb with boundary := some s.wmb.openCounter })).wmb = true) :
    acceptFlush s = answerLong .flush 0x02 false ((sealAll s).setWmb
      { (sealAll s).wmb with boundary := some s.wmb.openCounter }) := by
  unfold acceptFlush
  dsimp only
  rw [if_neg h, sealAll_setBoundary]

theorem mem_sealedFrom_openOrder {n : Nat} {es : List Entry} {e : Entry} (h : e ∈ es) :
    ∃ x ∈ sealedFrom n es, x.openOrder = e.openOrder := by
  have same := sealedBy_openOrders Entry.isOpen n es
  rw [← sealedFrom_eq] at same
  have listed : e.openOrder ∈ (sealedFrom n es).map (·.openOrder) :=
    same ▸ List.mem_map_of_mem h
  exact List.mem_map.mp listed

theorem longDone_of_done {s : State} (h : s.link.lastLong = some ⟨.flush, false⟩) :
    longDone s = s.setLink { s.link with lastLong := some ⟨.flush, true⟩ } := by
  simp only [longDone, h]

/-- Settles O30: what the sealing leaves, the FLUSH command by whether an entry stands below its
boundary, and the drain report by the boundary. -/
theorem flushSealsAndWaits : Obligations.FlushSealsAndWaits := by
  intro s
  refine ⟨fun hw => ?sealing, fun b hb => ⟨fun hlow => ?before, fun hdrained => ?after⟩,
    fun hb => ?none⟩
  case sealing =>
    intro sealed
    have wmb : (sealAll s).wmb = sealed := sealAll_wmb hw
    have all := sealAll_sealedAs hw
    have blocks : sealAll s =
        { s with wmb := sealed, map := (sealAll s).map, reloc := (sealAll s).reloc } := by
      conv_lhs => rw [all.blocks, wmb]
      rfl
    refine ⟨fun hop => ?_, fun hop => ⟨sealAll s, rfl, blocks, sealAll_asks hw hop⟩,
      fun hop hready => ⟨fun hempty => ?_, fun hsome => ?_⟩⟩
    · obtain ⟨map, reloc⟩ := all.failed hop
      refine congrArg Host.Outcome.next (blocks.trans ?_)
      rw [map, reloc]
    · have drains : drained (sealAll (s.setWmb
          { s.wmb with boundary := some s.wmb.openCounter })).wmb = true := by
        rw [sealAll_setBoundary, sealAll_of_empty hempty]
        exact (drained_iff rfl).mpr fun e he => absurd he (by simp [hempty])
      rw [exec_flush hop hready, acceptFlush_of_drained drains, sealAll_of_empty hempty]
      rfl
    · obtain ⟨e, he⟩ := List.exists_mem_of_ne_nil _ hsome
      have waits : ¬ drained (sealAll (s.setWmb
          { s.wmb with boundary := some s.wmb.openCounter })).wmb = true := by
        rw [sealAll_setBoundary, wmb]
        obtain ⟨x, hx, same⟩ := mem_sealedFrom_openOrder (n := s.wmb.sealCounter) he
        intro h
        have below := (drained_iff rfl).mp h x hx
        have open_order := hw.openBelow e he
        omega
      refine ⟨_, sealAll s, exec_flush hop hready, rfl, ?_⟩
      have link : (sealAll s).link = s.link := by rw [blocks]
      rw [acceptFlush_of_waiting waits, wmb]
      simp only [answerLong, respond, setLastLong, State.setLink, State.setWmb, link]
      rfl
  case before =>
    refine congrArg Host.Outcome.next (if_neg fun h => ?_)
    obtain ⟨e, he, below⟩ := hlow
    exact absurd ((drained_iff hb).mp h e he) (by omega)
  case after =>
    have reports : exec .flushDrain s = .next (if flushInProgress (s.setWmb { s.wmb with
        boundary := none }) then longDone (s.setWmb { s.wmb with boundary := none })
        else s.setWmb { s.wmb with boundary := none }) :=
      congrArg Host.Outcome.next (if_pos ((drained_iff hb).mpr hdrained))
    by_cases hflush : s.link.lastLong = some ⟨.flush, false⟩
    · rw [reports, if_pos (by simp [flushInProgress, hflush]),
        longDone_of_done (s := s.setWmb { s.wmb with boundary := none }) hflush]
      exact ⟨_, rfl, rfl, fun _ => rfl, fun h => absurd hflush h⟩
    · rw [reports, if_neg (by simp [flushInProgress, hflush])]
      exact ⟨_, rfl, rfl, fun h => absurd h hflush, fun _ => rfl⟩
  case none => exact congrArg Host.Outcome.next (if_neg (by simp [drained, hb]))

end Sys2Proof.Machine
end

section
/-!
PROOFS. The commit lanes' take and program (chapter 4), the relocation engine's happenings (chapter 5),
and how a physical sector joins its set (chapter 2).
-/

namespace Sys2Proof.Machine

open Sys2Proof

/-! ### The end of a program -/

/-- The state in which a program's result leaves its operation: the die free, the medium and the free
values as the program leaves them (R47, R56, R57, R114). -/
def afterProgram (d : DieId) (op : DieOp) (ok : Bool) (s : State) : State :=
  { endOperation d s with
    medium := (s.medium.program s.draws op ok).1
    draws := if ok then s.draws else s.draws + 1 }

theorem endProgram_endOperation (d : DieId) (op : DieOp) (ok : Bool) (s : State) :
    endProgram op ok (endOperation d s) =
      (afterProgram d op ok s, (s.medium.program s.draws op ok).2) := by
  obtain ⟨ds, h⟩ := endOperation_shape d s
  rw [afterProgram, h]
  rfl

/-! ### The lane's take -/

theorem isCandidate_iff (s : State) (d : DieId) (e : Entry) : isCandidate s d e = true ↔
    e.isSealed = true ∧ (∃ b, (mapEntry s e.sector).binding = some b ∧ dieOf b.phys = d) ∧
      (mapEntry s e.sector).reloc = .absent ∧ (mapEntry s e.sector).releasing = false ∧
      ∀ x ∈ s.wmb.entries, x.line = e.line → e.openOrder ≤ x.openOrder := by
  simp [isCandidate, eligible, and_assoc, not_lt]

theorem mem_of_oldestSealed {es : List Entry} {e : Entry} (h : oldestSealed es = some e) :
    e ∈ es := by
  induction es with
  | nil => cases h
  | cons a rest ih =>
    rw [oldestSealed] at h
    split at h
    next x hx =>
      split at h
      · obtain rfl := Option.some.inj h
        exact List.mem_cons_of_mem _ (ih hx)
      · obtain rfl := Option.some.inj h
        exact List.mem_cons_self
    next => obtain rfl := Option.some.inj h; exact List.mem_cons_self

/-- The oldest of a list is the entry whose seal order is below all the others' (R62). -/
theorem oldestSealed_of_least {es : List Entry} {e : Entry} (he : e ∈ es)
    (least : ∀ x ∈ es, x ≠ e → e.sealOrder < x.sealOrder) : oldestSealed es = some e := by
  induction es with
  | nil => cases he
  | cons a rest ih =>
    rw [oldestSealed]
    by_cases ha : a = e
    · subst ha
      split
      next x hx =>
        refine if_neg ?_
        by_cases hxa : x = a
        · rw [hxa]; omega
        · have := least x (List.mem_cons_of_mem _ (mem_of_oldestSealed hx)) hxa
          omega
      next => rfl
    · have oldest := ih ((List.mem_cons.mp he).resolve_left fun h => ha h.symm)
        fun x hx => least x (List.mem_cons_of_mem _ hx)
      rw [oldest]
      exact if_pos (least a List.mem_cons_self ha)

theorem laneChoice_of_least {s : State} {d : DieId} {e : Entry} (he : e ∈ s.wmb.entries)
    (hc : isCandidate s d e = true) (least : ∀ x ∈ s.wmb.entries, isCandidate s d x = true →
      x ≠ e → e.sealOrder < x.sealOrder) : laneChoice s d = some e :=
  oldestSealed_of_least (List.mem_filter.mpr ⟨he, hc⟩) fun x hx =>
    least x (List.mem_filter.mp hx).1 (List.mem_filter.mp hx).2

theorem laneChoice_of_no_candidate {s : State} {d : DieId}
    (h : ∀ e ∈ s.wmb.entries, isCandidate s d e = false) : laneChoice s d = none := by
  rw [laneChoice, List.filter_eq_nil_iff.mpr fun e he => by simp [h e he]]
  rfl

/-- A taker's mark on the entry it takes (R16). -/
theorem updateEntry_takenBy {s : State} (hw : WmbOrderly s.wmb) {e : Entry}
    (he : e ∈ s.wmb.entries) (hs : e.isSealed = true) (d : DieId) :
    updateEntry e.openOrder (Entry.takenBy d) s = { s with wmb := { s.wmb with
      entries := s.wmb.entries.map fun x =>
        if x = e then { e with stage := .committing e.sealOrder (.lane d) } else x } } := by
  have taken : Entry.takenBy d e = { e with stage := .committing e.sealOrder (.lane d) } := by
    cases hst : e.stage <;> simp_all [Entry.takenBy, Entry.sealOrder, Entry.isSealed]
  have entries : (s.wmb.entries.map fun x =>
      if x.openOrder = e.openOrder then Entry.takenBy d x else x) = s.wmb.entries.map fun x =>
      if x = e then { e with stage := .committing e.sealOrder (.lane d) } else x := by
    refine List.map_congr_left fun x hx => ?_
    by_cases hxe : x = e
    · rw [if_pos (by rw [hxe]), if_pos hxe, hxe, taken]
    · rw [if_neg fun h => hxe (hw.eq_of_openOrder hx he h), if_neg hxe]
  unfold updateEntry setEntries
  rw [entries]
  rfl

theorem exec_laneTake {s : State} {d : DieId} (hidle : s.lanes.get d = .idle)
    (hop : s.power.op = .running ∨ s.power.op = .powerdown) :
    exec (.laneTake d) s = .next (settle (laneTakes d s)) :=
  congrArg Host.Outcome.next (if_pos ⟨hidle, hop⟩)

/-- Settles O36: the candidates as they are defined, the choice among them, and what the taking
writes. -/
theorem laneTakesOldestCandidate : Obligations.LaneTakesOldestCandidate := by
  intro s d
  refine ⟨isCandidate_iff s d, fun hnot => ?notDue, fun hidle hop => ⟨fun hnone => ?stays,
    fun e b hw he hc least hb => ?takes⟩⟩
  case notDue =>
    refine congrArg Host.Outcome.next (if_neg fun ⟨hidle, hop⟩ => ?_)
    exact hnot.elim (· hidle) fun ⟨hr, hp⟩ => hop.elim hr hp
  case stays =>
    rw [exec_laneTake hidle hop]
    simp only [laneTakes, laneChoice_of_no_candidate hnone]
  case takes =>
    obtain ⟨hsealed, -⟩ := (isCandidate_iff s d e).mp hc
    have bound : boundPhys s e.sector = some b.phys := by rw [boundPhys, hb]; rfl
    rw [exec_laneTake hidle hop]
    simp only [laneTakes, laneChoice_of_least he hc least, bound]
    rw [updateEntry_takenBy hw he hsealed]
    rfl

/-! ### The lane's program -/

theorem exec_laneProgramLineResult {s : State} {d : DieId} {r : Request} {p : Phys} {pos : Pos}
    {data : LineData} (hop : s.power.op ≠ .failed)
    (hprogress : (s.dies.get d).inProgress = some r) (hlane : r.requester = .lane)
    (hprogram : r.op = .programLine p pos data) (ok : Bool) :
    exec (.laneProgramLineResult d ok) s = .next (settle (laneProgrammed d
      (s.medium.program s.draws r.op ok).2 (afterProgram d r.op ok s))) := by
  have answers := answering_of_inProgress hop hprogress
  rw [hlane, hprogram] at answers
  change execLaneProgramLineResult d ok s = _
  simp only [execLaneProgramLineResult, answers, endProgram_endOperation, hprogram]

theorem laneProgramFails_eq {s : State} {d : DieId} {p : Phys} {medium target : LineData}
    {e : Entry} {o : Nat} {t : Taker}
    (hlane : s.lanes.get d = .programming e.openOrder p medium target) (hw : WmbOrderly s.wmb)
    (he : e ∈ s.wmb.entries) (hstage : e.stage = .committing o t) :
    laneProgramFails d s = record (.programFail p (some e.line)) (requestReloc e.sector .failure
      (setMapEntry e.sector { mapEntry s e.sector with suspect := true }
        (laneReturns d e o s))) := by
  simp only [laneProgramFails, hlane, entryOf_of_mem hw he]
  rw [updateEntry_returned hw he hstage, setLane_record, setLane_requestReloc]
  rfl

/-- Settles O38: the program's own result, then the entry and its sector by the outcome. -/
theorem laneProgramEnds : Obligations.LaneProgramEnds := by
  refine ⟨fun s d r p' pos data ok hop hprogress hlane hprogram =>
    exec_laneProgramLineResult hop hprogress hlane hprogram ok, ?_⟩
  intro u d id p medium target e o hlane hw he hid hstage
  subst hid
  refine ⟨?_, ?_, laneProgramFails_eq hlane hw he hstage⟩
  · simp only [laneProgrammed, hlane, if_true]
    exact laneCommitted_eq hw he d
  · simp [laneProgrammed, hlane]

/-! ### The relocation engine's take and report -/

/-- Settles O39: the take by the queue, the report by whether it is heard. -/
theorem relocationTakesHead : Obligations.RelocationTakesHead := by
  intro s
  refine ⟨fun hnot => ?notDue, fun hidle hop => ⟨fun hq => ?empty, fun r rest hq => ?takes⟩,
    fun hnone => ?notAwaited, fun j hj => ⟨fun heard => ?chooses, fun hr hp => ?waits⟩⟩
  case notDue =>
    exact congrArg Host.Outcome.next (if_neg fun ⟨hidle, hop⟩ => hnot.elim (· hidle) (· hop))
  case empty =>
    refine congrArg Host.Outcome.next ((if_pos ⟨hidle, hop⟩).trans (congrArg settle ?_))
    simp only [relocationTakes, hq]
  case takes =>
    refine congrArg Host.Outcome.next ((if_pos ⟨hidle, hop⟩).trans (congrArg settle ?_))
    simp only [relocationTakes, hq]
    rfl
  case notAwaited =>
    refine congrArg Host.Outcome.next ?_
    split
    next j h => exact absurd h (hnone j)
    next => rfl
  case chooses =>
    have hears : reportHeard s = true := by
      rcases heard with h | ⟨h, hf⟩ <;> simp [reportHeard, *]
    refine congrArg Host.Outcome.next ?_
    simp only [hj, spareReported, hears, if_true]
  case waits =>
    have deaf : reportHeard s = false := by
      rcases hp with h | h <;> simp [reportHeard, hr, h]
    refine congrArg Host.Outcome.next ?_
    simp [hj, spareReported, deaf]

/-! ### The claim and the fold -/

theorem relocationAnswers_of_inProgress {s : State} {t : Phys} {r : Request}
    (hop : s.power.op ≠ .failed) (hprogress : (s.dies.get (dieOf t)).inProgress = some r)
    (hwho : r.requester = .relocation) : relocationAnswers s t = some r.op := by
  rw [relocationAnswers, ← hwho, answering_of_inProgress hop hprogress]

theorem claimEnds_passed {u : State} {j : Job} {t : Phys} {g : Gen} {wait : Bool}
    (h : u.reloc.engine = .claiming j t g wait) : claimEnds true u =
      if !(foldedList u).isEmpty then copyFrom j t g 0 u
      else if u.power.op = .powerdown then setEngine (.claiming j t g true) u
      else foldAndCopy j t g u := by
  simp only [claimEnds, h, if_true]

/-- Settles O40: the claim's own result, then the engine by the folded list and the operating state. -/
theorem claimEndsInFold : Obligations.ClaimEndsInFold := by
  refine ⟨?result, ?engine, ?fold⟩
  case result =>
    intro s j t g wait r p c ok hop hengine hprogress hwho hprogram
    have answers := relocationAnswers_of_inProgress hop hprogress hwho
    rw [hprogram] at answers
    refine congrArg Host.Outcome.next ?_
    simp only [hengine, answers, endProgram_endOperation, hprogram]
    rfl
  case engine =>
    intro u j t g wait hengine
    rw [claimEnds_passed hengine]
    refine ⟨fun hf => if_pos (by simp [hf]), fun hf hop => ?_, fun hf hop => ?_, ?_⟩
    · rw [if_neg (by simp [hf]), if_pos hop]
    · rw [if_neg (by simp [hf]), if_neg hop]
      rfl
    · simp [claimEnds, hengine, targetFails]
  case fold =>
    refine fun l e => ⟨fun o hst hl => ?_, fun h => ?_⟩
    · simp only [Entry.folded, hst, Entry.sector, hl, if_true]
    · unfold Entry.folded
      split
      next o hst =>
        refine if_neg (h.resolve_left ?_)
        simp [Entry.isSealed, hst]
      all_goals rfl

/-! ### The copy -/

theorem setEngine_same {e : Engine} {s : State} (h : s.reloc.engine = e) : setEngine e s = s := by
  subst h
  rfl

/-- Settles O41: the line read with the folded entries laid over it, and the program's result. -/
theorem copyProgramsItsLines : Obligations.CopyProgramsItsLines := by
  refine ⟨?read, ?result, ?engine⟩
  case read =>
    intro s j t g pos source r p q hop hengine hsource hprogress hwho hread line ended
    have answers := relocationAnswers_of_inProgress hop hprogress hwho
    rw [hread] at answers
    have exec_eq : exec .copyReadLineResult s =
        .next (settle (copyLineReturns (s.medium.line p q) ended)) := by
      refine congrArg Host.Outcome.next ?_
      simp only [hengine, hsource, answers]
      rfl
    obtain ⟨ds, hended⟩ := endOperation_shape (dieOf source) s
    have engine : ended.reloc.engine = .copying j t g pos := by
      simp only [ended, hended]; exact hengine
    have laid : layFolded ended (lineAt j.sector pos) (s.medium.line p q) = line := by
      simp only [ended, hended]; rfl
    rw [exec_eq]
    simp only [copyLineReturns, engine, laid]
    refine ⟨fun hblank => by rw [if_pos hblank], fun hline => ?_⟩
    rw [if_neg hline, issueCopy, setEngine_same engine]
  case result =>
    intro s j t g pos r p q data ok hop hengine hprogress hwho hprogram
    have answers := relocationAnswers_of_inProgress hop hprogress hwho
    rw [hprogram] at answers
    refine congrArg Host.Outcome.next ?_
    simp only [hengine, answers, endProgram_endOperation, hprogram]
    rfl
  case engine =>
    intro u j t g pos hengine
    exact ⟨by simp [copyProgramEnds, hengine], by simp [copyProgramEnds, hengine, targetFails]⟩

/-! ### The switch -/

theorem sourceLeaves_shape (source : Option Phys) (suspect : Bool) (s : State) :
    ∃ a l, sourceLeaves source suspect s = (s.setAcct a).setLink l := by
  unfold sourceLeaves
  split
  · split
    · exact joinRetired_shape _ _ _
    · obtain ⟨a, h⟩ := joinEraseQueue_shape _ s
      exact ⟨a, s.link, by rw [h]; rfl⟩
  · exact ⟨s.acct, s.link, rfl⟩

/-- The state after a switch, on the sets it leaves and with the engine's next state (R87). -/
def afterSwitch (j : Job) (t : Phys) (g : Gen) (u sets : State) (next : Engine) : State :=
  countUp .relocationsDone 1 { sets with
    map := Table.store MapEntry.unbacked u.map j.sector.val
      { mapEntry u j.sector with binding := some ⟨t, g⟩, suspect := false, reloc := .absent }
    wmb := { u.wmb with entries := u.wmb.entries.filter fun x => !x.isFolded }
    reloc := { u.reloc with engine := next } }

section Switch

variable (j : Job) (t : Phys) (g : Gen) (u : State)

/-- The sets write sector accounting and its counter alone, so the switch's other writes pass them. -/
theorem setEngine_afterSets (source : Option Phys) (suspect : Bool) (next : Engine) :
    let sets := sourceLeaves source suspect (moveTo .mapped t u)
    setEngine next (countUp .relocationsDone 1 (freeWhere Entry.isFolded (setMapEntry j.sector
      { mapEntry sets j.sector with binding := some ⟨t, g⟩, suspect := false, reloc := .absent }
      sets))) = afterSwitch j t g u sets next := by
  intro sets
  obtain ⟨a, l, hsets⟩ := sourceLeaves_shape source suspect (moveTo .mapped t u)
  simp only [sets, hsets]
  rfl

theorem switch_to_idle (h : j.source = none ∨ (mapEntry u j.sector).suspect = false) :
    switch j t g u = afterSwitch j t g u
      (sourceLeaves j.source (mapEntry u j.sector).suspect (moveTo .mapped t u)) .idle := by
  unfold switch
  dsimp only
  split
  next p hsource hsuspect =>
    rcases h with h | h
    · cases hsource.symm.trans h
    · cases hsuspect.symm.trans h
  next => exact setEngine_afterSets j t g u _ _ _

theorem switch_to_retiring {old : Phys} (hsource : j.source = some old)
    (hsuspect : (mapEntry u j.sector).suspect = true) :
    switch j t g u = issue .relocation (.programTag old (.retire .program)) (afterSwitch j t g u
      (sourceLeaves j.source (mapEntry u j.sector).suspect (moveTo .mapped t u))
      (.retiringSource j old)) := by
  rw [← setEngine_afterSets]
  unfold switch
  dsimp only
  split
  next p hp _ => obtain rfl := Option.some.inj (hp.symm.trans hsource); rfl
  next hnot => exact absurd hsuspect (hnot old hsource)

end Switch

/-- Settles O42: the program's own result, then the switch by the source and its suspicion. -/
theorem sealMakesTheSwitch : Obligations.SealMakesTheSwitch := by
  constructor
  case left =>
    intro s j t g r p c ok hop hengine hprogress hwho hprogram
    have answers := relocationAnswers_of_inProgress hop hprogress hwho
    rw [hprogram] at answers
    refine congrArg Host.Outcome.next ?_
    simp only [hengine, answers, endProgram_endOperation, hprogram]
    rfl
  case right =>
    intro u j t g hengine e switched
    have passed : sealEnds true u = switch j t g u := by simp only [sealEnds, hengine, if_true]
    rw [passed]
    refine ⟨fun hsource => ?_, fun old hsource => ⟨fun hs => ?_, fun hs => ?_⟩, ?_⟩
    · rw [switch_to_idle j t g u (.inl hsource), hsource]
      rfl
    · have unsuspected : (mapEntry u j.sector).suspect = false := hs
      rw [switch_to_idle j t g u (.inr hs), hsource, unsuspected]
      rfl
    · have suspected : (mapEntry u j.sector).suspect = true := hs
      rw [switch_to_retiring j t g u hsource hs, hsource, suspected]
      rfl
    · simp [sealEnds, hengine, targetFails]

/-! ### The two RETIRE programs -/

theorem setEngine_record (e : Engine) (b : RecordBody) (s : State) :
    setEngine e (record b s) = record b (setEngine e s) := by
  rw [record_eq, record_eq]
  rfl

/-- A record made on the condition that a program failed. -/
def recordUnless (pass : Bool) (b : RecordBody) (s : State) : State :=
  if pass then s else record b s

theorem recordUnless_shape (pass : Bool) (b : RecordBody) (s : State) :
    ∃ l, recordUnless pass b s = s.setLink l := by
  cases pass
  · exact record_shape b s
  · exact ⟨s.link, rfl⟩

section RetiringTarget

variable {u : State} {j : Job} {t : Phys} {g : Gen} {why : RetireReason} {pending : Bool}
  {old : Option Phys} (pass : Bool)

/-- The state in which a failed target is retired and the field holds no target (R90). -/
def targetRetired (j : Job) (t : Phys) (why : RetireReason) (pending pass : Bool) (u : State) :
    State :=
  { joinRetired t why (recordUnless pass (.programFail t none) u) with
    map := Table.store MapEntry.unbacked u.map j.sector.val
      { mapEntry u j.sector with reloc := .inFlight none pending } }

theorem targetRetireEnds_eq (hengine : u.reloc.engine = .retiringTarget j t g why)
    (hfield : (mapEntry u j.sector).reloc = .inFlight old pending) :
    targetRetireEnds pass u =
      if 3 ≤ j.failedTargets then abandon j none (targetRetired j t why pending pass u)
      else if u.power.op = .powerdown ∧ (foldedList u).isEmpty then
        setEngine (.awaitingSpare j) (targetRetired j t why pending pass u)
      else chooseTarget j (targetRetired j t why pending pass u) := by
  obtain ⟨l, recorded⟩ := recordUnless_shape pass (.programFail t none) u
  have field : setFieldTarget j.sector none (joinRetired t why
      (recordUnless pass (.programFail t none) u)) = targetRetired j t why pending pass u := by
    have same : mapEntry (joinRetired t why (recordUnless pass (.programFail t none) u)) j.sector =
        mapEntry u j.sector := by rw [recorded]; rfl
    simp only [setFieldTarget, same, hfield]
    simp only [targetRetired, recorded]
    rfl
  simp only [targetRetireEnds, hengine]
  rw [show (if pass then u else record (.programFail t none) u) =
    recordUnless pass (.programFail t none) u from rfl, field]
  rfl

end RetiringTarget

/-- Settles O43: each program's own result, then the failed target by the number of targets, the
operating state and the folded list. -/
theorem relocationRetirementsEnd : Obligations.RelocationRetirementsEnd := by
  refine ⟨?source, ?result, ?target⟩
  case source =>
    intro s j old r p c ok hop hengine hprogress hwho hprogram ended
    have answers := relocationAnswers_of_inProgress hop hprogress hwho
    rw [hprogram] at answers
    have idle : setEngine .idle (afterProgram (dieOf old) r.op ok s) = ended := by
      obtain ⟨ds, h⟩ := endOperation_shape (dieOf old) s
      simp only [ended, afterProgram, h]
      rfl
    obtain ⟨ds, hended⟩ := endOperation_shape (dieOf old) s
    have engine : (afterProgram (dieOf old) r.op ok s).reloc.engine = .retiringSource j old := by
      rw [afterProgram, hended]; exact hengine
    have ends (pass : Bool) : sourceRetireEnds pass (afterProgram (dieOf old) r.op ok s) =
        if pass then ended else record (.programFail old none) ended := by
      simp only [sourceRetireEnds, engine]
      cases pass
      · exact (setEngine_record _ _ _).trans (congrArg _ idle)
      · exact idle
    refine congrArg Host.Outcome.next ?_
    simp only [hengine, answers, endProgram_endOperation]
    rw [← hprogram, ends]
  case result =>
    intro s j t g why r p c ok hop hengine hprogress hwho hprogram
    have answers := relocationAnswers_of_inProgress hop hprogress hwho
    rw [hprogram] at answers
    refine congrArg Host.Outcome.next ?_
    simp only [hengine, answers, endProgram_endOperation, hprogram]
    rfl
  case target =>
    intro u j t g why pass pending old hengine hfield retired
    have ends := targetRetireEnds_eq pass hengine hfield
    refine ⟨fun h3 => by rw [ends, if_pos h3]; rfl,
      fun h3 => ⟨fun hop hf => ?_, fun hnot => ?_⟩⟩
    · rw [ends, if_neg (by omega), if_pos ⟨hop, by simp [hf]⟩]
      rfl
    · have goes_on : ¬ (u.power.op = .powerdown ∧ (foldedList u).isEmpty = true) := by
        rintro ⟨hop, hf⟩
        exact hnot.elim (· hop) (· (List.isEmpty_iff.mp hf))
      rw [ends, if_neg (by omega), if_neg goes_on]
      rfl

/-! ### The sets -/

/-- The order of the spare pool (R34). -/
def wornBefore (s : State) (a b : Phys) : Prop :=
  knownCount s a < knownCount s b ∨ (knownCount s a = knownCount s b ∧ a < b)

theorem wearBefore_iff (s : State) (a b : Phys) : wearBefore s a b = true ↔ wornBefore s a b := by
  simp [wearBefore, wornBefore]

theorem wornBefore_trans {s : State} {a b c : Phys} (h : wornBefore s a b) (h' : wornBefore s b c) :
    wornBefore s a c := by
  unfold wornBefore at *
  rcases h with h | ⟨h, hab⟩ <;> rcases h' with h' | ⟨h', hbc⟩
  · exact .inl (BitVec.lt_trans h h')
  · exact .inl (h' ▸ h)
  · exact .inl (h ▸ h')
  · exact .inr ⟨h.trans h', hab.trans hbc⟩

theorem wornBefore_total {s : State} {a b : Phys} (h : a ≠ b) (hn : ¬ wornBefore s a b) :
    wornBefore s b a := by
  unfold wornBefore at *
  rw [not_or, not_and] at hn
  obtain ⟨hcount, hnumber⟩ := hn
  by_cases heq : knownCount s a = knownCount s b
  · exact .inr ⟨heq.symm, lt_of_le_of_ne (not_lt.mp (hnumber heq)) (Ne.symm h)⟩
  · exact .inl (by bv_omega)

theorem insertByWear_split (before : Phys → Bool) (p : Phys) (l : List Phys) :
    ∃ front back, l = front ++ back ∧ insertByWear before p l = front ++ p :: back := by
  induction l with
  | nil => exact ⟨[], [], rfl, rfl⟩
  | cons q rest ih =>
    by_cases hq : before q = true
    · exact ⟨[], q :: rest, rfl, by rw [insertByWear, if_pos hq]; rfl⟩
    · obtain ⟨front, back, rfl, h⟩ := ih
      exact ⟨q :: front, back, rfl, by rw [insertByWear, if_neg hq, h]; rfl⟩

theorem mem_insertByWear {before : Phys → Bool} {p q : Phys} {l : List Phys} :
    q ∈ insertByWear before p l ↔ q = p ∨ q ∈ l := by
  obtain ⟨front, back, rfl, h⟩ := insertByWear_split before p l
  simp [h, or_left_comm]

/-- A sector put at its place keeps the pool in wear order (R34). -/
theorem insertByWear_ordered {s : State} {p : Phys} {l : List Phys} (hp : p ∉ l)
    (h : l.Pairwise (wornBefore s)) : (insertByWear (wearBefore s p) p l).Pairwise (wornBefore s) := by
  induction l with
  | nil => exact List.pairwise_singleton _ _
  | cons q rest ih =>
    obtain ⟨first, ordered⟩ := List.pairwise_cons.mp h
    have hq : p ≠ q := fun e => hp (e ▸ List.mem_cons_self)
    rw [insertByWear]
    split
    next hb =>
      have before := (wearBefore_iff s p q).mp hb
      exact List.pairwise_cons.mpr ⟨fun x hx => (List.mem_cons.mp hx).elim (fun e => e ▸ before)
        fun hx => wornBefore_trans before (first x hx), h⟩
    next hb =>
      have after := wornBefore_total hq (mt (wearBefore_iff s p q).mpr hb)
      exact List.pairwise_cons.mpr ⟨fun x hx => (mem_insertByWear.mp hx).elim (fun e => e ▸ after)
        (first x), ih (fun hm => hp (List.mem_cons_of_mem _ hm)) ordered⟩

/-- The order of the pool reads the counts alone. -/
theorem wornBefore_congr {s t : State} (h : t.acct.recs = s.acct.recs) :
    wornBefore t = wornBefore s := by
  funext a b
  simp only [wornBefore, knownCount, h]

/-- Settles O44: each join as its blocks state it; the pool by the place its order gives. -/
theorem sectorsJoinTheirSets : Obligations.SectorsJoinTheirSets := by
  intro p s
  refine ⟨rfl, fun why => rfl, ?_⟩
  intro n t before
  refine ⟨rfl, ?_, fun hp hordered => ?_⟩
  · obtain ⟨front, back, hl, h⟩ := insertByWear_split
      (wearBefore (s.setAcct (s.acct.withRec p .spare n)) p) p s.acct.pool
    exact ⟨front, back, hl, h⟩
  · have same : wornBefore t = wornBefore (s.setAcct (s.acct.withRec p .spare n)) :=
      wornBefore_congr rfl
    change s.acct.pool.Pairwise (wornBefore t) at hordered
    change List.Pairwise (wornBefore t) t.acct.pool
    rw [same] at hordered ⊢
    exact insertByWear_ordered hp hordered

end Sys2Proof.Machine
end

section
/-!
PROOFS. The erase slots (chapter 6) and the release of a sector (section 2.3): when an erase starts, what
its result and the slot's programs lead to, and how a release ends.
-/

namespace Sys2Proof.Machine

open Sys2Proof

/-! ### Pending work -/

theorem boundPhys_on_die (s : State) (l : Sector) (d : DieId) :
    (∃ p, boundPhys s l = some p ∧ dieOf p = d) ↔
      ∃ b, (mapEntry s l).binding = some b ∧ dieOf b.phys = d := by
  simp [boundPhys]

/-- The engine's work on a die, state by state (R100). -/
theorem engineOnDie_iff (e : Engine) (d : DieId) : engineOnDie e d = true ↔
    ∃ j t, (dieOf t = d ∨ ∃ source, j.source = some source ∧ dieOf source = d) ∧
      ((∃ g pending, e = .claiming j t g pending) ∨ (∃ g pos, e = .copying j t g pos) ∨
        (∃ g, e = .sealing j t g) ∨ (∃ g why, e = .retiringTarget j t g why) ∨
        e = .retiringSource j t) := by
  cases e <;> simp [engineOnDie]

theorem pendingWork_iff (s : State) (d : DieId) : pendingWork s d = true ↔
    (∃ e ∈ s.wmb.entries, isCandidate s d e = true) ∨ s.lanes.get d ≠ .idle ∨
      (∃ r ∈ s.reloc.queue, ∃ b, (mapEntry s r.sector).binding = some b ∧ dieOf b.phys = d) ∨
      (s.reloc.queue ≠ [] ∧ ∃ p, s.acct.pool.head? = some p ∧ dieOf p = d) ∨
      engineOnDie s.reloc.engine d = true := by
  simp [pendingWork, boundPhys_on_die, or_assoc]

/-! ### The start -/

theorem belowLowWater_iff (s : State) : belowLowWater s = true ↔ s.acct.pool.length < 4 :=
  decide_eq_true_iff

/-- The conditions of a start (R101). -/
theorem eraseMayStart_iff (s : State) (d : DieId) : eraseMayStart s d = true ↔
    s.power.op = .running ∧ s.erase.slots.get d = .idle ∧ (s.dies.get d).reported = true ∧
      (pendingWork s d = false ∨ s.acct.pool.length < 4) := by
  simp [eraseMayStart, belowLowWater_iff, and_assoc]

theorem exec_eraseStart_of_not {s : State} {d : DieId} (h : eraseMayStart s d ≠ true ∨
    ∀ r ∈ s.acct.eraseQueue, dieOf r.phys ≠ d) : exec (.eraseStart d) s = .next s := by
  refine congrArg Host.Outcome.next ?_
  rcases h with h | h
  · exact if_neg h
  · have none : oldestQueued s d = none := List.find?_eq_none.mpr fun r hr => by simp [h r hr]
    rw [none]
    exact ite_self s

theorem exec_eraseStart_of_may {s : State} {d : DieId} {before after : List EraseRecord}
    {r : EraseRecord} (h : eraseMayStart s d = true)
    (hq : s.acct.eraseQueue = before ++ r :: after) (hbefore : ∀ x ∈ before, dieOf x.phys ≠ d)
    (hr : dieOf r.phys = d) : exec (.eraseStart d) s = .next (settle (startErase d r s)) := by
  have oldest : oldestQueued s d = some r :=
    List.find?_eq_some_iff_append.mpr ⟨by simp [hr], before, after, hq,
      fun x hx => by simp [hbefore x hx]⟩
  refine congrArg Host.Outcome.next ((if_pos h).trans ?_)
  rw [oldest]

/-- The state that a start leaves before its request is issued (R101). -/
def eraseStarted (d : DieId) (r : EraseRecord) (s : State) : State :=
  { s with
    acct := { s.acct with
      recs := Table.put s.acct.recs r.phys.val ⟨.erasing, knownCount s r.phys⟩
      eraseQueue := s.acct.eraseQueue.filter fun x => x.phys ≠ r.phys }
    erase := { s.erase with slots := s.erase.slots.set d (.erasing
      { phys := r.phys, count := r.count, urgent := decide (s.acct.pool.length < 4) }) } }

theorem startErase_eq (d : DieId) (r : EraseRecord) (s : State) :
    startErase d r s = issue .eraseSlot (.eraseSector r.phys) (eraseStarted d r s) := rfl

@[simp] theorem settle_acct (s : State) : (settle s).acct = s.acct := by rw [settle_blocks]

@[simp] theorem settle_erase (s : State) : (settle s).erase = s.erase := by rw [settle_blocks]

theorem issue_get_same (who : Requester) (op : DieOp) (s : State) :
    (issue who op s).dies.get (dieOf op.phys) = { s.dies.get (dieOf op.phys) with
      waiting := (s.dies.get (dieOf op.phys)).waiting ++ [⟨who, op, s.now⟩] } :=
  setDie_get_same _ _ _

/-- A start that reaches a free die is taken there. -/
theorem Die.settled_takes_start {die : Die} (hst : die.state = .idle) (hwait : die.waiting = [])
    (hoff : die.offline = false) (p : Phys) (now : Nat) :
    Die.settled { die with waiting := die.waiting ++ [⟨.eraseSlot, .eraseSector p, now⟩] } =
      { die with state := .erasing ⟨p, 0, 0, 0⟩ } := by
  have choice : arbiterChoice [⟨.eraseSlot, .eraseSector p, now⟩] =
      some ⟨.eraseSlot, .eraseSector p, now⟩ := rfl
  obtain ⟨st, ws, off, rep⟩ := die
  subst hst hwait hoff
  rw [Die.settled_take (r := ⟨.eraseSlot, .eraseSector p, now⟩) rfl rfl choice]
  simp [Die.takes, takenState]

/-- Settles O45: the conditions, the record that starts, and the die that takes or keeps the request. -/
theorem eraseStartsWhenAllowed : Obligations.EraseStartsWhenAllowed := by
  intro s d may started onDie
  have may_iff : eraseMayStart s d = true ↔ may := eraseMayStart_iff s d
  refine ⟨fun h => ?notDue, fun hmay before r after hq hbefore hr => ?starts, ?pending⟩
  case notDue => exact exec_eraseStart_of_not (h.imp_left (mt may_iff.mp))
  case starts =>
    intro start
    have exec_eq := exec_eraseStart_of_may (may_iff.mpr hmay) hq hbefore hr
    rw [startErase_eq] at exec_eq
    have hop : (issue .eraseSlot (.eraseSector r.phys) (eraseStarted d r s)).power.op ≠ .failed := by
      change s.power.op ≠ .failed
      rw [hmay.1]
      decide
    have die : (issue .eraseSlot (.eraseSector r.phys) (eraseStarted d r s)).dies.get d =
        { s.dies.get d with waiting := (s.dies.get d).waiting ++ [start] } := by
      subst hr
      exact issue_get_same _ _ _
    refine ⟨exec_eq, _, exec_eq, by rw [settle_acct]; rfl, by rw [settle_erase]; rfl,
      fun hidle hwait hoff => ?_, fun x time hst => ?_⟩
    · rw [settle_get hop, die]
      exact Die.settled_takes_start hidle hwait hoff _ _
    · rw [settle_get hop, die]
      exact Die.settled_busy (by rcases hst with h | h <;> simp [h])
        (by rcases hst with h | h <;> simp [h])
  case pending => rw [pendingWork_iff, engineOnDie_iff]

/-! ### The ends of a slot's operations -/

theorem nextCount_toNat (c : EraseCount) : (nextCount c).toNat = min 0xFFFFFF (c.toNat + 1) := by
  have hc := c.isLt
  unfold nextCount
  split
  next h => subst h; rfl
  next h =>
    have : c.toNat ≠ 0xFFFFFF := fun e => h (BitVec.eq_of_toNat_eq e)
    rw [BitVec.toNat_add]
    simp
    omega

theorem exec_eraseSectorResult {s : State} {d : DieId} {i : SlotItems}
    (hslot : s.erase.slots.get d = .erasing i) (hawaited : eraseAwaited s d = true) (ok : Bool) :
    exec (.eraseSectorResult d ok) s = .next (settle (if ok then
      erasePasses d i ((eraseEnded d s).setMedium ((eraseEnded d s).medium.eraseSector i.phys))
    else
      eraseFails d i (((eraseEnded d s).setMedium
        ((eraseEnded d s).medium.cutErase (eraseEnded d s).draws i.phys)).setDraws
          ((eraseEnded d s).draws + 1)))) := by
  refine congrArg Host.Outcome.next ?_
  simp only [hslot, hawaited, if_true]

theorem eraseFails_eq (d : DieId) (i : SlotItems) (s : State) : eraseFails d i s =
    issue .eraseSlot (.programTag i.phys (.retire .erase)) (record (.eraseFail i.phys)
      { s with erase := { s.erase with slots := s.erase.slots.set d (.retiring i .erase) } }) := by
  rw [eraseFails, slotRetires, record_eq, record_eq]
  rfl

theorem erasePasses_eq (d : DieId) (i : SlotItems) (s : State) : erasePasses d i s =
    issue .eraseSlot (.programTag i.phys (.count (nextCount i.count))) (countUp .erasesDone 1
      { s with erase := { slots := s.erase.slots.set d (.counting i)
                          pauseList := s.erase.pauseList.filter fun x => x ≠ i.phys } }) := rfl

/-- Settles O46: the die that awaits the result, by its state, and the slot's two ways on. -/
theorem eraseEndsInCountOrRetire : Obligations.EraseEndsInCountOrRetire := by
  intro s ended d i hop hslot hended
  have awaited : eraseAwaited s d = true := by
    unfold eraseAwaited
    rcases hended with ⟨_, hst, -⟩ | ⟨_, _, _, _, hst, -⟩ | ⟨_, hst, -⟩
    all_goals rw [hst]; cases ho : s.power.op <;> simp_all
  have ends : eraseEnded d s = ended := by
    rcases hended with ⟨_, hst, rfl⟩ | ⟨_, _, _, _, hst, rfl⟩ | ⟨_, hst, rfl⟩ <;>
      simp only [eraseEnded, hst]
  have blocks : ended.medium = s.medium ∧ ended.draws = s.draws ∧ ended.erase = s.erase := by
    rcases hended with ⟨_, -, rfl⟩ | ⟨_, _, _, _, -, rfl⟩ | ⟨_, -, rfl⟩ <;> exact ⟨rfl, rfl, rfl⟩
  obtain ⟨medium, draws, erase⟩ := blocks
  refine ⟨?_, ?_, nextCount_toNat _⟩
  · rw [exec_eraseSectorResult hslot awaited, if_pos rfl, ends, erasePasses_eq, ← erase, ← medium]
    rfl
  · rw [exec_eraseSectorResult hslot awaited, if_neg (by decide), ends, eraseFails_eq, ← erase,
      ← medium, ← draws]
    rfl

theorem slotAnswers_of_inProgress {s : State} {d : DieId} {r : Request} {op : DieOp}
    (hop : s.power.op ≠ .failed) (hprogress : (s.dies.get d).inProgress = some r)
    {who : Requester} (hwho : r.requester = who) (h : r.op = op) :
    answering s d who = some op := by
  rw [← hwho, answering_of_inProgress hop hprogress, h]

/-- The pool a slot's sector joined, and DEGRADED looked at again (R40, R104). -/
theorem countEnds_passed {u : State} {d : DieId} {i : SlotItems}
    (h : u.erase.slots.get d = .counting i) : countEnds d true u = clearDegraded
      { joinPool i.phys (nextCount i.count) u with
        erase := { u.erase with slots := u.erase.slots.set d .idle } } := by
  simp only [countEnds, h, if_true]
  rfl

theorem slotRetires_record (d : DieId) (i : SlotItems) (why : RetireReason) (b : RecordBody)
    (u : State) : slotRetires d i why (record b u) =
      issue .eraseSlot (.programTag i.phys (.retire why)) (record b { u with
        erase := { u.erase with slots := u.erase.slots.set d (.retiring i why) } }) := by
  rw [slotRetires, record_eq, record_eq]
  rfl

/-- Settles O47: each program's own result, then the slot by its outcome. -/
theorem slotProgramsEnd : Obligations.SlotProgramsEnd := by
  refine ⟨?result, ?count, ?retire⟩
  case result =>
    intro s d r p ok hop hprogress hwho pass ended
    refine ⟨fun n hr => ?_, fun why hr => ?_⟩
    · refine congrArg Host.Outcome.next ?_
      simp only [slotAnswers_of_inProgress hop hprogress hwho hr, endProgram_endOperation, hr, pass,
        ended]
      rfl
    · refine congrArg Host.Outcome.next ?_
      simp only [slotAnswers_of_inProgress hop hprogress hwho hr, endProgram_endOperation, hr, pass,
        ended]
      rfl
  case count =>
    intro u d i hslot joined
    rw [countEnds_passed hslot]
    refine ⟨fun hdeg hpool => if_pos ⟨hdeg, hpool⟩, fun hnot => if_neg ?_, ?_⟩
    · rintro ⟨hdeg, hpool⟩
      exact hnot.elim (· hdeg) fun h => absurd hpool (Nat.not_le.mpr h)
    · have fails : countEnds d false u = slotRetires d i .tag (record (.programFail i.phys none) u) := by
        simp [countEnds, hslot]
      rw [fails, slotRetires_record]
  case retire =>
    intro u d i why pass hslot
    obtain ⟨l, h⟩ := recordUnless_shape pass (.programFail i.phys none) u
    have recorded : (if pass then u else record (.programFail i.phys none) u) = u.setLink l := h
    simp only [slotRetireEnds, hslot, recorded]
    rfl

/-! ### The ends of a release -/

/-- The state of a released sector, on the sets its physical sector has joined (R14, R30, R31). -/
def releasedOn (l : Sector) (u sets : State) : State :=
  { sets with
    map := Table.store MapEntry.unbacked u.map l.val
      { mapEntry u l with binding := none, releasing := false, suspect := false }
    release := none
    link := { sets.link with
      lastLong := u.link.lastLong.map fun x => { x with done := true } } }

theorem longDone_eq (s : State) : longDone s = s.setLink { s.link with
    lastLong := s.link.lastLong.map fun x => { x with done := true } } := by
  unfold longDone
  split
  next l h => rw [h]; rfl
  next h =>
    have same : { s.link with lastLong := (none : Option LastLong) } = s.link := by rw [← h]
    rw [h, Option.map_none, same]
    rfl

theorem Link.recorded_lastLong (x : Link) (b : RecordBody) : (x.recorded b).lastLong = x.lastLong := by
  unfold Link.recorded
  split <;> rfl

/-- A release ends on sets that leave the map, the buffer and the last long command alone. -/
theorem releaseEnds_eq {l : Sector} {p : Phys} {retiring : Bool} {u sets : State}
    (hmap : sets.map = u.map) (hwmb : sets.wmb = u.wmb) (hlong : sets.link.lastLong = u.link.lastLong) :
    releaseEnds ⟨l, p, retiring⟩ sets =
      if ∃ e ∈ u.wmb.entries, e.isSealed = true ∧ e.sector = l then
        requestReloc l .backing (releasedOn l u sets)
      else releasedOn l u sets := by
  have done : longDone ((setMapEntry l
      { mapEntry sets l with binding := none, releasing := false, suspect := false }
      sets).setRelease none) = releasedOn l u sets := by
    rw [longDone_eq, releasedOn, ← hlong, ← hmap, ← mapEntry_congr hmap]
    rfl
  have wmb : (releasedOn l u sets).wmb = u.wmb := hwmb
  change queueStaged l (longDone _) = _
  rw [done]
  unfold queueStaged
  rw [wmb]
  simp only [List.any_eq_true, Bool.and_eq_true, beq_iff_eq]

/-- Settles O48: each program's own result, then the release by its outcome. -/
theorem releaseEndsUnbacked : Obligations.ReleaseEndsUnbacked := by
  constructor
  case left =>
    intro s l p p' retiring ok r hop hrelease hprogress hwho pass ended
    refine ⟨fun g hr => ?_, fun why hr => ?_⟩
    · refine congrArg Host.Outcome.next ?_
      simp only [hrelease, slotAnswers_of_inProgress hop hprogress hwho hr, endProgram_endOperation,
        hr, pass, ended]
      rfl
    · refine congrArg Host.Outcome.next ?_
      simp only [hrelease, slotAnswers_of_inProgress hop hprogress hwho hr, endProgram_endOperation,
        hr, pass, ended]
      rfl
  case right =>
    intro u l p retiring hrelease released
    refine ⟨fun hr => ?_, fun hr => ?_⟩
    · subst hr
      constructor
      · simp only [releaseMarkEnds, hrelease]
        exact releaseEnds_eq rfl rfl rfl
      · simp only [releaseMarkEnds, hrelease]
        rfl
    · subst hr
      constructor
      · simp only [releaseRetireEnds, hrelease]
        exact releaseEnds_eq rfl rfl rfl
      · simp only [releaseRetireEnds, hrelease]
        rw [record_eq]
        exact releaseEnds_eq rfl rfl (Link.recorded_lastLong _ _)

end Sys2Proof.Machine
end

section
/-!
PROOFS. The start-up scanner (section 10.3): the judgement and the classification of a tag, the candidate
table, the next tag, and what the end of the scan writes.
-/

namespace Sys2Proof.Machine

open Sys2Proof

/-! ### The judgement the scanner classifies by -/

/-- A valid SEAL matched by its CLAIM (R46). -/
theorem sealMatched_iff (tag : List Byte) : sealMatched tag = true ↔
    ∃ l g, judgeTag tag .claim = .valid (.claim l g) ∧
      judgeTag tag .sealing = .valid (.sealing g) := by
  unfold sealMatched
  split
  next l g g' hc hs => simp [hc, hs]
  next hnot =>
    refine ⟨nofun, fun ⟨l, g, hc, hs⟩ => (hnot l g g hc hs).elim⟩

/-- A valid RELEASE matched by its CLAIM and its SEAL (R46). -/
theorem releaseMatched_iff (tag : List Byte) : releaseMatched tag = true ↔
    (∃ l g, judgeTag tag .claim = .valid (.claim l g) ∧
      judgeTag tag .sealing = .valid (.sealing g)) ∧
    ∃ l g, judgeTag tag .claim = .valid (.claim l g) ∧
      judgeTag tag .release = .valid (.release g) := by
  rw [← sealMatched_iff]
  unfold releaseMatched
  split
  next l g g' hc hr => simp [hc, hr]
  next hnot =>
    refine ⟨nofun, fun ⟨_, l, g, hc, hr⟩ => (hnot l g g hc hr).elim⟩

section ScanJudge

variable {tag : List Byte}

theorem scanJudge_sealing_kept (h : (∀ c, judgeTag tag .sealing ≠ .valid c) ∨
    sealMatched tag = true) : scanJudge tag .sealing = judgeTag tag .sealing := by
  unfold scanJudge
  cases hj : judgeTag tag .sealing with
  | valid c => exact if_pos (h.resolve_left fun hn => hn c hj)
  | blank => rfl
  | garbled => rfl

theorem scanJudge_sealing_garbled {c : TagContents} (hc : judgeTag tag .sealing = .valid c)
    (h : sealMatched tag ≠ true) : scanJudge tag .sealing = .garbled := by
  simp [scanJudge, hc, h]

theorem scanJudge_release_kept (h : (∀ c, judgeTag tag .release ≠ .valid c) ∨
    releaseMatched tag = true) : scanJudge tag .release = judgeTag tag .release := by
  unfold scanJudge
  cases hj : judgeTag tag .release with
  | valid c => exact if_pos (h.resolve_left fun hn => hn c hj)
  | blank => rfl
  | garbled => rfl

theorem scanJudge_release_garbled {c : TagContents} (hc : judgeTag tag .release = .valid c)
    (h : releaseMatched tag ≠ true) : scanJudge tag .release = .garbled := by
  simp [scanJudge, hc, h]

end ScanJudge

/-! ### The classification -/

section Classify

variable {tag : List Byte}

theorem classifyTag_retired {why : RetireReason}
    (h : scanJudge tag .retire = .valid (.retire why)) :
    classifyTag tag = ⟨.retired why, none, false⟩ := by
  simp only [classifyTag, h]

theorem mem_allFields' (f : TagField) : f ∈ allFields := by cases f <;> decide

theorem classifyTag_garbled (hretire : ∀ c, scanJudge tag .retire ≠ .valid c) {f : TagField}
    (h : scanJudge tag f = .garbled) : classifyTag tag = ⟨.eraseQueue, none, true⟩ := by
  unfold classifyTag
  split
  next reason hr => exact absurd hr (hretire _)
  next => exact if_pos (List.any_eq_true.mpr ⟨f, mem_allFields' f, by simp [h]⟩)

section Ungarbled

variable (hretire : ∀ c, scanJudge tag .retire ≠ .valid c) (hclear : ∀ f, scanJudge tag f ≠ .garbled)
include hretire hclear

theorem classifyTag_spare {c : TagContents} (hcount : scanJudge tag .count = .valid c)
    (hclaim : scanJudge tag .claim = .blank) (hseal : scanJudge tag .sealing = .blank)
    (hrelease : scanJudge tag .release = .blank) : classifyTag tag = ⟨.spare, none, false⟩ := by
  unfold classifyTag
  split
  next reason hr => exact absurd hr (hretire _)
  next => rw [if_neg (by simp [hclear])]; simp only [hcount, hclaim, hseal, hrelease]

theorem classifyTag_candidate {l : Sector} {g : Gen} {c : TagContents}
    (hclaim : scanJudge tag .claim = .valid (.claim l g))
    (hseal : scanJudge tag .sealing = .valid c) (hrelease : scanJudge tag .release = .blank) :
    classifyTag tag = ⟨.candidate, some (l, g), false⟩ := by
  unfold classifyTag
  split
  next reason hr => exact absurd hr (hretire _)
  next => rw [if_neg (by simp [hclear])]; simp only [hclaim, hseal, hrelease]

/-- Any other tag past the first two lines of the table waits for an erase (R157). -/
theorem classifyTag_eraseQueue
    (notSpare : ∀ c, scanJudge tag .count = .valid c → scanJudge tag .claim = .blank →
      scanJudge tag .sealing ≠ .blank)
    (notCandidate : ∀ c x, scanJudge tag .claim = .valid c → scanJudge tag .sealing = .valid x →
      scanJudge tag .release ≠ .blank) : classifyTag tag = ⟨.eraseQueue, none, false⟩ := by
  unfold classifyTag
  split
  next reason hr => exact absurd hr (hretire _)
  next =>
    rw [if_neg (by simp [hclear])]
    split
    next c hcount hclaim hseal _ => exact absurd hseal (notSpare c hcount hclaim)
    next l g x hclaim hseal hrelease => exact absurd hrelease (notCandidate _ _ hclaim hseal)
    next => rfl

end Ungarbled

theorem tagCount_of_valid {n : EraseCount} (h : scanJudge tag .count = .valid (.count n)) :
    tagCount tag = n := by simp only [tagCount, h]

theorem tagCount_of_not_valid (h : ∀ c, scanJudge tag .count ≠ .valid c) : tagCount tag = 0 := by
  unfold tagCount
  split
  next n hn => exact absurd hn (h _)
  next => rfl

end Classify

/-! ### The scanner's tables -/

theorem Scanner.find_classify_same (sc : Scanner) (p : Phys) (k : ClassKind) (n : EraseCount) :
    Table.find (sc.classify p k n).classes p.val = some ⟨k, n⟩ := Table.find_put_same _ _ _

theorem Scanner.find_classify_other (sc : Scanner) {p q : Phys} (k : ClassKind) (n : EraseCount)
    (h : q ≠ p) : Table.find (sc.classify p k n).classes q.val = Table.find sc.classes q.val :=
  Table.find_put_other _ _ fun hv => h (Fin.ext hv)

theorem Scanner.compare_blocks (sc : Scanner) (l : Sector) (c : Candidate) : sc.compare l c =
    { sc with classes := (sc.compare l c).classes, candidates := (sc.compare l c).candidates } := by
  unfold Scanner.compare
  split
  · rfl
  · split <;> rfl

theorem Scanner.compare_first {sc : Scanner} {l : Sector} (c : Candidate)
    (h : Table.find sc.candidates l.val = none) :
    sc.compare l c = { sc with candidates := Table.put sc.candidates l.val c } := by
  simp only [Scanner.compare, h]

theorem Scanner.compare_beaten {sc : Scanner} {l : Sector} {c old : Candidate}
    (h : Table.find sc.candidates l.val = some old) (hb : beats c old = true) :
    sc.compare l c = Scanner.classify { sc with candidates := Table.put sc.candidates l.val c }
      old.phys .eraseQueue (sc.countOf old.phys) := by
  simp only [Scanner.compare, h, hb, if_true]

theorem Scanner.compare_kept {sc : Scanner} {l : Sector} {c old : Candidate}
    (h : Table.find sc.candidates l.val = some old) (hb : beats c old = false) :
    sc.compare l c = sc.classify c.phys .eraseQueue (sc.countOf c.phys) := by
  simp [Scanner.compare, h, hb]

theorem beats_iff (new old : Candidate) : beats new old = true ↔
    old.gen < new.gen ∨ (new.gen = old.gen ∧ new.phys < old.phys) := by
  simp [beats]

/-- A candidate compared touches its own sector's entry alone. -/
theorem Scanner.compare_candidates_other (sc : Scanner) {l l' : Sector} (c : Candidate)
    (h : l' ≠ l) :
    Table.find (sc.compare l c).candidates l'.val = Table.find sc.candidates l'.val := by
  have put : Table.find (Table.put sc.candidates l.val c) l'.val =
      Table.find sc.candidates l'.val := Table.find_put_other _ _ fun hv => h (Fin.ext hv)
  unfold Scanner.compare
  split
  · exact put
  · split
    · exact put
    · rfl

section Judge

variable {sc : Scanner} {p : Phys} {tag : List Byte}

theorem Scanner.judge_blocks (sc : Scanner) (p : Phys) (tag : List Byte) : sc.judge p tag =
    { sc with
      judged := sc.judged + 1, classes := (sc.judge p tag).classes
      candidates := (sc.judge p tag).candidates, highest := raiseHighest sc.highest tag } := by
  unfold Scanner.judge
  dsimp only
  split
  · rw [Scanner.compare_blocks]; rfl
  · rfl

/-- The sector classified as its tag says. -/
def Scanner.classed (sc : Scanner) (p : Phys) (tag : List Byte) : Scanner :=
  sc.classify p (classifyTag tag).kind (tagCount tag)

theorem Scanner.judge_of_no_candidate (h : (classifyTag tag).candidate = none) :
    (sc.judge p tag).candidates = sc.candidates ∧
      (sc.judge p tag).classes = (sc.classed p tag).classes := by
  unfold Scanner.judge
  simp only [h]
  exact ⟨rfl, rfl⟩

theorem Scanner.judge_of_candidate {l : Sector} {g : Gen}
    (h : (classifyTag tag).candidate = some (l, g)) :
    (sc.judge p tag).candidates = ((sc.classed p tag).compare l ⟨p, g⟩).candidates ∧
      (sc.judge p tag).classes = ((sc.classed p tag).compare l ⟨p, g⟩).classes := by
  unfold Scanner.judge
  simp only [h]
  exact ⟨rfl, rfl⟩

end Judge

/-! ### The next tag -/

theorem nextPhys_of_next {p q : Phys} (h : q.val = p.val + 1) (hp : p.val ≠ 527) :
    nextPhys p = some q := by
  have hq := q.isLt
  rw [nextPhys, dif_pos (by omega), if_neg hp]
  exact congrArg some (Fin.ext h.symm)

theorem nextPhys_of_last {p : Phys} (h : p.val = 527 ∨ p.val = 1055) : nextPhys p = none := by
  unfold nextPhys
  split
  · exact if_pos (by omega)
  · rfl

theorem exec_readTagResult {s : State} {d : DieId} {r : Request} {p : Phys}
    (hop : s.power.op ≠ .failed) (hprogress : (s.dies.get d).inProgress = some r)
    (hwho : r.requester = .scanner) (hread : r.op = .readTag p) :
    exec (.readTagResult d) s =
      .next (settle (scanTag d p (s.medium.tag p) (endOperation d s))) := by
  refine congrArg Host.Outcome.next ?_
  simp only [slotAnswers_of_inProgress hop hprogress hwho hread]

/-- A tag's judgement on the state that its record leaves. -/
def scanTold (p : Phys) (tag : List Byte) (s : State) : State :=
  if (classifyTag tag).garbled then record (.garbledTag p) s else s

theorem scanTold_shape (p : Phys) (tag : List Byte) (s : State) :
    ∃ l, scanTold p tag s = s.setLink l := by
  unfold scanTold
  split
  · exact record_shape _ s
  · exact ⟨s.link, rfl⟩

section ScanTag

variable {s : State} {d : DieId} {p : Phys} {tag : List Byte}

theorem scanTag_next {q : Phys} (h : nextPhys p = some q) : scanTag d p tag s =
    issue .scanner (.readTag q) { scanTold p tag s with
      scan := { s.scan.judge p tag with progress := s.scan.progress.set d (.reading q) } } := by
  obtain ⟨l, told⟩ := scanTold_shape p tag s
  have progress : (s.scan.judge p tag).progress = s.scan.progress := by rw [Scanner.judge_blocks]
  simp only [scanTag, h]
  rw [show (if (classifyTag tag).garbled then record (.garbledTag p) s else s) =
    scanTold p tag s from rfl, told, ← progress]
  rfl

theorem scanTag_last (h : nextPhys p = none) : scanTag d p tag s =
    { scanTold p tag s with
      scan := { s.scan.judge p tag with progress := s.scan.progress.set d .done } } := by
  obtain ⟨l, told⟩ := scanTold_shape p tag s
  have progress : (s.scan.judge p tag).progress = s.scan.progress := by rw [Scanner.judge_blocks]
  simp only [scanTag, h]
  rw [show (if (classifyTag tag).garbled then record (.garbledTag p) s else s) =
    scanTold p tag s from rfl, told, ← progress]
  rfl

end ScanTag

/-- Settles O49: the matched fields, the table line by line, the candidate table, and the next tag. -/
theorem scannerJudgesTags : Obligations.ScannerJudgesTags := by
  refine ⟨fun tag => ?fields, fun tag => ?table, fun sc p tag => ?judge, ?next⟩
  case fields =>
    intro j sealing release
    have seal_iff : sealMatched tag = true ↔ sealing := sealMatched_iff tag
    have release_iff : releaseMatched tag = true ↔ release := releaseMatched_iff tag
    exact ⟨rfl, rfl, rfl, fun h => scanJudge_sealing_kept (h.imp_right seal_iff.mpr),
      fun ⟨c, hc⟩ hn => scanJudge_sealing_garbled hc (mt seal_iff.mp hn),
      fun h => scanJudge_release_kept (h.imp_right release_iff.mpr),
      fun ⟨c, hc⟩ hn => scanJudge_release_garbled hc (mt release_iff.mp hn)⟩
  case table =>
    intro f
    refine ⟨fun why h => classifyTag_retired h, fun hretire => ⟨fun ⟨x, hx⟩ =>
      classifyTag_garbled hretire hx, fun hclear => ?_⟩, fun n h => tagCount_of_valid h,
      tagCount_of_not_valid⟩
    have differ {x : TagField} {c : TagContents} (hc : f x = .valid c) : f x ≠ .blank := by
      rw [hc]; nofun
    refine ⟨fun hblank => ?_, fun c => classifyTag_spare hretire hclear, fun c hclaim hseal => ?_,
      fun l g m hclaim hseal => ⟨fun x hrelease => ?_, classifyTag_candidate hretire hclear hclaim
        hseal⟩⟩
    · exact classifyTag_eraseQueue hretire hclear
        (fun c hcount => absurd (hblank .count) (differ hcount))
        fun c x hclaim => absurd (hblank .claim) (differ hclaim)
    · exact classifyTag_eraseQueue hretire hclear
        (fun _ _ hblank => absurd hblank (differ hclaim))
        fun _ x _ hvalid => absurd hseal (differ hvalid)
    · exact classifyTag_eraseQueue hretire hclear
        (fun _ _ hblank => absurd hblank (differ hclaim)) fun _ _ _ _ => differ hrelease
  case judge =>
    intro k t classed
    have blocks : t = { sc with
        judged := sc.judged + 1, classes := t.classes, candidates := t.candidates
        highest := raiseHighest sc.highest tag } := Scanner.judge_blocks sc p tag
    have highest : t.highest = raiseHighest sc.highest tag := by rw [blocks]
    have own : Table.find (sc.classed p tag).classes p.val = some ⟨k.kind, tagCount tag⟩ :=
      Scanner.find_classify_same _ _ _ _
    have others (q : Phys) (hq : q ≠ p) :
        Table.find (sc.classed p tag).classes q.val = Table.find sc.classes q.val :=
      Scanner.find_classify_other _ _ _ hq
    refine ⟨by rw [highest]; exact blocks, fun g hg => ⟨fun hh => ?_, fun h hh => ?_⟩, fun hg => ?_,
      fun hnone => ?_, fun l g hcand => ⟨fun l' hl => ?_, fun hfirst => ?_, fun old hold hne => ?_⟩⟩
    · rw [highest]; simp only [raiseHighest, hg, hh]
    · rw [highest]; simp only [raiseHighest, hg, hh]
    · rw [highest]; simp only [raiseHighest, hg]
    · obtain ⟨candidates, classes⟩ := Scanner.judge_of_no_candidate (sc := sc) (p := p) hnone
      refine ⟨candidates, ?_, fun q hq => ?_⟩
      · exact (congrArg (Table.find · p.val) classes).trans own
      · exact (congrArg (Table.find · q.val) classes).trans (others q hq)
    all_goals obtain ⟨candidates, classes⟩ := Scanner.judge_of_candidate (sc := sc) (p := p) hcand
    · exact (congrArg (Table.find · l'.val) candidates).trans
        (Scanner.compare_candidates_other _ _ hl)
    · have compared := Scanner.compare_first (sc := sc.classed p tag) ⟨p, g⟩ hfirst
      rw [compared] at candidates classes
      refine ⟨?_, ?_, fun q hq => ?_⟩
      · exact (congrArg (Table.find · l.val) candidates).trans (Table.find_put_same _ _ _)
      · exact (congrArg (Table.find · p.val) classes).trans own
      · exact (congrArg (Table.find · q.val) classes).trans (others q hq)
    · have count_old : (sc.classed p tag).countOf old.phys = sc.countOf old.phys := by
        rw [Scanner.countOf, others old.phys hne, Scanner.countOf]
      have count_new : (sc.classed p tag).countOf p = tagCount tag := by
        rw [Scanner.countOf, own]; rfl
      refine ⟨fun q hq hqo => ?_, fun better => ?_, fun worse => ?_⟩
      · refine (congrArg (Table.find · q.val) classes).trans ?_
        by_cases hb : beats ⟨p, g⟩ old = true
        · rw [Scanner.compare_beaten (sc := sc.classed p tag) hold hb,
            Scanner.find_classify_other _ _ _ hqo]
          exact others q hq
        · rw [Scanner.compare_kept (sc := sc.classed p tag) (c := ⟨p, g⟩) hold (by simpa using hb),
            Scanner.find_classify_other _ _ _ hq]
          exact others q hq
      · have hb : beats ⟨p, g⟩ old = true :=
          (beats_iff _ _).mpr (better.imp_right fun ⟨hg, hp⟩ => ⟨hg.symm, hp⟩)
        rw [Scanner.compare_beaten (sc := sc.classed p tag) hold hb] at candidates classes
        refine ⟨?_, ?_, ?_⟩
        · exact (congrArg (Table.find · l.val) candidates).trans (Table.find_put_same _ _ _)
        · refine (congrArg (Table.find · p.val) classes).trans ?_
          rw [Scanner.find_classify_other _ _ _ (Ne.symm hne)]
          exact own
        · refine (congrArg (Table.find · old.phys.val) classes).trans ?_
          rw [Scanner.find_classify_same, count_old]
      · have hb : beats ⟨p, g⟩ old = false := by
          rw [Bool.eq_false_iff, Ne, beats_iff]
          rintro (h | ⟨h, hp⟩) <;> rcases worse with h' | ⟨h', hp'⟩
          · exact absurd h' (by simp only at h; bv_omega)
          · exact absurd h (by simp [h'])
          · exact absurd h' (by simp [← h])
          · exact absurd hp (not_lt.mpr hp'.le)
        rw [Scanner.compare_kept (sc := sc.classed p tag) hold hb] at candidates classes
        refine ⟨?_, ?_, ?_⟩
        · exact (congrArg (Table.find · l.val) candidates).trans hold
        · refine (congrArg (Table.find · p.val) classes).trans ?_
          rw [Scanner.find_classify_same, count_new]
        · refine (congrArg (Table.find · old.phys.val) classes).trans ?_
          rw [Scanner.find_classify_other _ _ _ hne]
          exact others old.phys hne
  case next =>
    intro s d r p hop hprogress hwho hread tag ended told
    have exec_eq := exec_readTagResult hop hprogress hwho hread
    obtain ⟨ds, hended⟩ := endOperation_shape d s
    have scan : ended.scan = s.scan := by simp only [ended, hended]; rfl
    refine ⟨fun q hq hp => ?_, fun hp => ?_⟩
    · rw [exec_eq, scanTag_next (nextPhys_of_next hq hp)]
      rw [← scan]
      rfl
    · rw [exec_eq, scanTag_last (nextPhys_of_last hp)]
      rw [← scan]
      rfl

/-! ### The tables the scan leaves -/

theorem Table.find_map {α β : Type} (f : α → β) (t : Table α) (k : Nat) :
    Table.find (t.map fun c => (c.1, f c.2)) k = (Table.find t k).map f := by
  induction t with
  | nil => rfl
  | cons c rest ih =>
    rw [List.map_cons, Table.find, Table.find]
    split
    · rfl
    · exact ih

/-- A table in order lists each key once. -/
theorem Table.find_iff_mem {α : Type} {t : Table α} (ht : Table.Sorted t) {k : Nat} {v : α} :
    Table.find t k = some v ↔ (k, v) ∈ t := by
  induction t with
  | nil => simp [Table.find]
  | cons c rest ih =>
    obtain ⟨first, sorted⟩ := List.pairwise_cons.mp ht
    have ih := ih sorted
    rw [Table.find, List.mem_cons]
    by_cases hk : c.1 = k
    · rw [if_pos hk]
      constructor
      · intro h
        obtain rfl := Option.some.inj h
        exact .inl (by rw [← hk])
      · rintro (h | h)
        · rw [← h]
        · have := first k (List.mem_map_of_mem h)
          omega
    · rw [if_neg hk, ih]
      exact ⟨.inr, fun h => h.resolve_left fun e => hk (by rw [← e])⟩

theorem physOf_eq_iff {k : Nat} (hk : k < 1056) (p : Phys) : physOf k = p ↔ k = p.val := by
  rw [Fin.ext_iff]
  simp only [physOf]
  rw [Nat.mod_eq_of_lt hk]

theorem physOf_lt {k m : Nat} (h : k < m) (hm : m < 1056) : physOf k < physOf m := by
  rw [Fin.lt_def]
  simp only [physOf]
  rw [Nat.mod_eq_of_lt hm, Nat.mod_eq_of_lt (h.trans hm)]
  exact h

/-- The record of a classification (R159 item 2). -/
def Classified.physRec (x : Classified) : PhysRec :=
  { membership := x.kind.membership, count := x.count }

theorem find_scannedRecs (classes : Table Classified) (k : Nat) :
    Table.find (scannedRecs classes) k = (Table.find classes k).map Classified.physRec :=
  Table.find_map Classified.physRec classes k

/-- The map entry of a candidate (R159 item 1). -/
def Candidate.mapEntry (c : Candidate) : MapEntry :=
  { MapEntry.unbacked with binding := some { phys := c.phys, gen := c.gen } }

theorem find_scannedMap (candidates : Table Candidate) (k : Nat) :
    Table.find (scannedMap candidates) k = (Table.find candidates k).map Candidate.mapEntry :=
  Table.find_map Candidate.mapEntry candidates k

/-- The retired record of a classification, where it is one (R159 item 2). -/
def retiredRecord (c : Nat × Classified) : Option RetiredRecord :=
  match c.2.kind with
  | .retired reason => some ⟨physOf c.1, reason⟩
  | .eraseQueue | .spare | .candidate => none

theorem scannedRetired_eq (classes : Table Classified) :
    scannedRetired classes = classes.filterMap retiredRecord := rfl

theorem retiredRecord_eq_some (c : Nat × Classified) (r : RetiredRecord) :
    retiredRecord c = some r ↔ c.2.kind = .retired r.reason ∧ r.phys = physOf c.1 := by
  obtain ⟨k, kind, n⟩ := c
  obtain ⟨p, why⟩ := r
  cases kind <;> simp [retiredRecord, eq_comm, and_comm]

section Scanned

variable {classes : Table Classified}

/-- Sectors put into a pool one after another stand there in wear order. -/
theorem foldl_insertByWear_ordered {s : State} {l pool : List Phys} (hl : l.Nodup)
    (apart : ∀ p ∈ l, p ∉ pool) (h : pool.Pairwise (wornBefore s)) :
    (l.foldl (fun pool p => insertByWear (wearBefore s p) p pool) pool).Pairwise
      (wornBefore s) := by
  induction l generalizing pool with
  | nil => exact h
  | cons p rest ih =>
    obtain ⟨new, nodup⟩ := List.nodup_cons.mp hl
    refine ih nodup (fun q hq hmem => ?_)
      (insertByWear_ordered (apart p List.mem_cons_self) h)
    rcases mem_insertByWear.mp hmem with rfl | hin
    · exact new hq
    · exact apart q (List.mem_cons_of_mem _ hq) hin

theorem mem_foldl_insertByWear {before : Phys → Phys → Bool} {l pool : List Phys} {q : Phys} :
    q ∈ l.foldl (fun pool p => insertByWear (before p) p pool) pool ↔ q ∈ l ∨ q ∈ pool := by
  induction l generalizing pool with
  | nil => simp
  | cons p rest ih =>
    rw [List.foldl_cons, ih, mem_insertByWear, List.mem_cons]
    tauto

variable (ht : Table.Sorted classes) (hkeys : ∀ c ∈ classes, c.1 < 1056)
include ht hkeys

theorem mem_scannedPool (p : Phys) : p ∈ scannedPool classes ↔
    ∃ n, Table.find classes p.val = some ⟨.spare, n⟩ := by
  rw [scannedPool, mem_foldl_insertByWear]
  simp only [List.mem_map, List.mem_filter, List.not_mem_nil, or_false, Table.find_iff_mem ht]
  constructor
  · rintro ⟨⟨k, kind, n⟩, ⟨hmem, hkind⟩, hp⟩
    obtain rfl := (physOf_eq_iff (hkeys _ hmem) p).mp hp
    simp only [beq_iff_eq] at hkind
    exact ⟨n, hkind ▸ hmem⟩
  · rintro ⟨n, hmem⟩
    exact ⟨_, ⟨hmem, by simp⟩, (physOf_eq_iff (hkeys _ hmem) p).mpr rfl⟩

theorem mem_scannedQueue (p : Phys) (n : EraseCount) : ⟨p, n⟩ ∈ scannedQueue classes ↔
    Table.find classes p.val = some ⟨.eraseQueue, n⟩ := by
  rw [scannedQueue, Table.find_iff_mem ht]
  simp only [List.mem_map, List.mem_filter, EraseRecord.mk.injEq]
  constructor
  · rintro ⟨⟨k, kind, m⟩, ⟨hmem, hkind⟩, hp, rfl⟩
    obtain rfl := (physOf_eq_iff (hkeys _ hmem) p).mp hp
    simp only [beq_iff_eq] at hkind
    exact hkind ▸ hmem
  · intro hmem
    exact ⟨_, ⟨hmem, by simp⟩, (physOf_eq_iff (hkeys _ hmem) p).mpr rfl, rfl⟩

theorem mem_scannedRetired (p : Phys) (why : RetireReason) :
    ⟨p, why⟩ ∈ scannedRetired classes ↔
      ∃ n, Table.find classes p.val = some ⟨.retired why, n⟩ := by
  simp only [scannedRetired_eq, List.mem_filterMap, retiredRecord_eq_some, Table.find_iff_mem ht]
  constructor
  · rintro ⟨⟨k, kind, n⟩, hmem, hkind, hp⟩
    obtain rfl := (physOf_eq_iff (hkeys _ hmem) p).mp hp.symm
    simp only at hkind
    exact ⟨n, hkind ▸ hmem⟩
  · rintro ⟨n, hmem⟩
    exact ⟨_, hmem, rfl, ((physOf_eq_iff (hkeys _ hmem) p).mpr rfl).symm⟩

theorem physOf_pairwise : classes.Pairwise fun a b => physOf a.1 < physOf b.1 := by
  have keys : classes.Pairwise fun a b => a.1 < b.1 := List.pairwise_map.mp ht
  exact keys.imp_of_mem fun _ hb h => physOf_lt h (hkeys _ hb)

theorem scannedPool_ordered {u : State} (hrecs : u.acct.recs = scannedRecs classes) :
    (scannedPool classes).Pairwise (wornBefore u) := by
  have count (p : Phys) : knownCount u p =
      ((Table.find classes p.val).map (·.count)).getD 0 := by
    rw [knownCount, hrecs, find_scannedRecs]
    cases Table.find classes p.val <;> rfl
  have order : classedBefore classes = wearBefore u := by
    funext p q
    rw [wearBefore, count, count]
    rfl
  have nodup : ((classes.filter fun c => c.2.kind == .spare).map fun c => physOf c.1).Nodup :=
    List.pairwise_map.mpr (((physOf_pairwise ht hkeys).sublist List.filter_sublist).imp ne_of_lt)
  rw [scannedPool, order]
  exact foldl_insertByWear_ordered nodup (fun _ _ => List.not_mem_nil) List.Pairwise.nil

theorem scannedQueue_ordered : ((scannedQueue classes).map (·.phys)).Pairwise (· < ·) := by
  rw [scannedQueue, List.map_map]
  exact List.pairwise_map.mpr ((physOf_pairwise ht hkeys).sublist List.filter_sublist)

theorem scannedRetired_ordered : ((scannedRetired classes).map (·.phys)).Pairwise (· < ·) := by
  rw [List.pairwise_map, scannedRetired_eq, List.pairwise_filterMap]
  refine (physOf_pairwise ht hkeys).imp fun {a b} h r hr r' hr' => ?_
  rw [((retiredRecord_eq_some _ _).mp hr).2, ((retiredRecord_eq_some _ _).mp hr').2]
  exact h

end Scanned

/-! ### The end of the scan -/

/-- The state the scan leaves, before a held cycle is handled (R159). -/
def scanned (s : State) : State :=
  { s with
    power := { s.power with op := if s.power.pfail then .powerdown else .running }
    map := scannedMap s.scan.candidates
    acct := scannedAcct s.scan.classes
    reloc := { s.reloc with generation := some (scannedGeneration s.scan.highest) }
    scan := Scanner.atReset }

theorem endScan_eq {s : State} (h : s.wmb.entries = []) :
    endScan s = handleHeldCycle (scanned s) := by
  have nothing : sealAll (scanned s) = scanned s := sealAll_of_empty h
  change handleHeldCycle (if s.power.pfail then sealAll (scanned s) else scanned s) = _
  rw [nothing, ite_self]

theorem handleHeldCycle_of_holding {s : State} {h : HeldCycle} (hp : s.host.port = .holding h) :
    handleHeldCycle s = handleArrival h s := by simp only [handleHeldCycle, hp]

theorem handleHeldCycle_of_other {s : State} (hp : ∀ h, s.host.port ≠ .holding h) :
    handleHeldCycle s = s := by
  unfold handleHeldCycle
  split
  next h hh => exact absurd hh (hp h)
  all_goals rfl

/-- Settles O50: the map, the sets, the lists and the counter as the scan's tables give them. -/
theorem scanEndWritesTheMap : Obligations.ScanEndWritesTheMap := by
  intro s
  refine ⟨fun hnot => ?notDue, fun hop h0 h1 quiet tables hkeys => ?due⟩
  case notDue =>
    refine congrArg Host.Outcome.next (if_neg fun ⟨hop, h0, h1⟩ => ?_)
    exact hnot.elim (· hop) fun h => h.elim (· h0) (· h1)
  case due =>
    have exec_eq : exec .scanEnd s = .next (settle (handleHeldCycle (scanned s))) := by
      rw [← endScan_eq (quiet.entries hop).1]
      exact congrArg Host.Outcome.next (if_pos ⟨hop, h0, h1⟩)
    have entry (l : Sector) : mapEntry (scanned s) l =
        ((Table.find s.scan.candidates l.val).map Candidate.mapEntry).getD MapEntry.unbacked :=
      congrArg (Option.getD · MapEntry.unbacked) (find_scannedMap _ _)
    have found (p : Phys) : Table.find (scanned s).acct.recs p.val =
        (Table.find s.scan.classes p.val).map Classified.physRec := find_scannedRecs _ _
    refine ⟨scanned s, fun hp => ?_, fun h hp => ?_, rfl, fun hh => ?_, fun h hh => ?_,
      fun l => ⟨fun hl => ?_, fun c hl => ?_⟩, ?_, scannedPool_ordered tables.classes hkeys rfl,
      scannedQueue_ordered tables.classes hkeys, scannedRetired_ordered tables.classes hkeys⟩
    · rw [exec_eq, handleHeldCycle_of_other (s := scanned s) hp]
    · rw [exec_eq, handleHeldCycle_of_holding (s := scanned s) hp]
    · simp only [scanned, scannedGeneration, hh]
    · simp only [scanned, scannedGeneration, hh]
    · rw [entry, hl]; rfl
    · rw [entry, hl]; rfl
    · intro p c
      refine ⟨?_, mem_scannedPool tables.classes hkeys p,
        fun why => mem_scannedRetired tables.classes hkeys p why, fun n => ⟨fun hn => ?_,
          mem_scannedQueue tables.classes hkeys p n⟩⟩
      · rw [membershipOf, found, Option.map_map]
        rfl
      · rw [knownCount, found, Option.map_map]
        exact congrArg (Option.getD · 0) hn

end Sys2Proof.Machine
end

section
/-!
PROOFS. The die schedulers' own happenings (chapter 7): PAUSE and its answers, the time-outs with the entry
into FAILED, and what READY brings.
-/

namespace Sys2Proof.Machine

open Sys2Proof

/-! ### PAUSE -/

theorem elapse_power (dt : Nat) (s : State) : (elapse dt s).power = s.power := by
  rw [elapse_blocks]

theorem exec_progressIntervalReached {s : State} {d : DieId} {run : EraseRun}
    (hop : s.power.op ≠ .failed) (hst : (s.dies.get d).state = .erasing run) :
    exec (.progressIntervalReached d) s = .next (settle (elapse (400 - run.progress) s)) := by
  refine congrArg Host.Outcome.next ((if_neg hop).trans ?_)
  simp only [hst]
  rfl

theorem exec_pauseAnswer {s : State} (hop : s.power.op ≠ .failed) (d : DieId) (held : Bool) :
    exec (.pauseAnswer d held) s = .next (settle (pauseAnswered d held s)) :=
  congrArg Host.Outcome.next (if_neg hop)

/-- The time an erase still lacks of its progress interval passes at its die (R122). -/
theorem Die.elapse_erasing {die : Die} {op : OpState} {run : EraseRun} (hop : op ≠ .failed)
    (hst : die.state = .erasing run) (dt : Nat) : (die.elapse op dt).state =
      .erasing { run with progress := run.progress + dt, erasing := run.erasing + dt } := by
  simp only [Die.elapse, DieState.elapse, hst, if_neg hop]

/-- Settles O51: the scheduler's choice after the interval, and each answer by the state of the PAUSE. -/
theorem erasePausesForHostRead : Obligations.ErasePausesForHostRead := by
  intro s d hop
  refine ⟨fun run hst => ⟨exec_progressIntervalReached hop hst, fun hread hbudget hoff => ?pauses⟩,
    fun p run ab time hst => ⟨?_, ?_⟩, fun p ab time hst => ⟨?_, ?_⟩⟩
  case pauses =>
    refine ⟨_, exec_progressIntervalReached hop hst, ?_⟩
    have timed := Die.elapse_erasing hop hst (400 - run.progress)
    rw [settle_get (by rwa [elapse_power]), elapse_get, Die.settled_erasing (die := (s.dies.get d).elapse s.power.op _)
      hoff timed, if_pos]
    · have full : run.progress + (400 - run.progress) = max run.progress 400 := by omega
      rw [full]
      rfl
    · exact ⟨hread, by simp only [progressInterval]; omega, hbudget⟩
  all_goals rw [exec_pauseAnswer hop]; simp only [pauseAnswered, hst]
  rfl

/-! ### Time-outs -/

section Cut

variable {d : DieId} {s : State}

theorem cutInProgress_of_eraseRun {run : EraseRun}
    (h : (s.dies.get d).state.eraseRun = some run) : cutInProgress d s =
      { s with medium := s.medium.cutErase s.draws run.phys, draws := s.draws + 1 } := by
  refine cutInProgress_erasing ?_
  cases hst : (s.dies.get d).state <;> simp_all [DieState.eraseRun]

theorem cutInProgress_of_none (hprogram : ∀ r time, (s.dies.get d).state ≠ .programming r time)
    (h : (s.dies.get d).state.eraseRun = none) : cutInProgress d s = s := by
  refine cutInProgress_other hprogram fun run hrun => ?_
  rcases hrun with hst | ⟨_, hst⟩ | ⟨_, _, _, hst⟩ | ⟨_, _, _, hst⟩ <;>
    simp [hst, DieState.eraseRun] at h

theorem dieReset_eq (d : DieId) (cause : ResetCause) (s : State) : dieReset d cause s =
    setDie d { s.dies.get d with state := .resetting cause 0 false, reported := false }
      (cutInProgress d s) := by
  obtain ⟨m, n, h⟩ := cutInProgress_shape d s
  rw [dieReset, setDieState, h]
  rfl

end Cut

/-! ### The entry into FAILED -/

section EntersFailed

variable {v : State}

theorem portEntersFailed_of_none (h : heldCycle v = none)
    (hab : ∀ ask, v.host.port ≠ .reading (.abandoned none) ask) : portEntersFailed v = v := by
  unfold heldCycle at h
  unfold portEntersFailed
  split <;> simp_all

theorem portEntersFailed_of_abandoned {ask : ReadAsk}
    (h : v.host.port = .reading (.abandoned none) ask) : portEntersFailed v = setPort .idle v := by
  simp only [portEntersFailed, h, portReturns]

/-- A cycle that waits in HOLDING or behind an abandoned read is handled as arriving in FAILED (R141). -/
theorem portEntersFailed_of_waiting {x : HeldCycle} (h : v.host.port = .holding x ∨
    ∃ ask, v.host.port = .reading (.abandoned (some x)) ask) :
    portEntersFailed v = handleArrival x v ∨
      portEntersFailed v = handleArrival x (setPort .idle v) := by
  rcases h with h | ⟨ask, h⟩
  · exact .inl (by simp only [portEntersFailed, h])
  · exact .inr (by simp only [portEntersFailed, h, portReturns])

variable (hop : v.power.op = .failed) {x : HeldCycle}
include hop

theorem portEntersFailed_of_read (hheld : heldCycle v = some x)
    (lane : x.cycle.low = true ∨ x.cycle.high = true) (hk : x.cycle.kind = .read)
    (hw : v.host.port ≠ .writing x) : portEntersFailed v =
      countUp .hostReads 1 (setPort (.completed x.cycle (some 0xFFFF)) v) := by
  rcases (heldCycle_iff v x).mp hheld with ⟨ask, h⟩ | h | h | h
  · simp only [portEntersFailed, h]
    rfl
  · rcases portEntersFailed_of_waiting (.inr h) with e | e <;> rw [e]
    · rw [handleArrival_failed_read lane hop hk]; rfl
    · rw [handleArrival_failed_read (s := setPort .idle v) lane hop hk]; rfl
  · exact absurd h hw
  · rcases portEntersFailed_of_waiting (.inl h) with e | e <;> rw [e]
    · rw [handleArrival_failed_read lane hop hk]; rfl
    · rw [handleArrival_failed_read (s := setPort .idle v) lane hop hk]; rfl

theorem portEntersFailed_of_write (hheld : heldCycle v = some x)
    (lane : x.cycle.low = true ∨ x.cycle.high = true) (hk : x.cycle.kind ≠ .read)
    (hr : ∀ ask, v.host.port ≠ .reading (.cycle x) ask) : portEntersFailed v =
      countUp .refusedWrites 1 (setPort (.completed x.cycle none) v) := by
  obtain ⟨data, hk⟩ : ∃ data, x.cycle.kind = .write data := by
    cases h : x.cycle.kind with
    | read => exact absurd h hk
    | write data => exact ⟨data, rfl⟩
  rcases (heldCycle_iff v x).mp hheld with ⟨ask, h⟩ | h | h | h
  · exact absurd h (hr ask)
  · rcases portEntersFailed_of_waiting (.inr h) with e | e <;> rw [e]
    · rw [handleArrival_failed_write lane hop hk]; rfl
    · rw [handleArrival_failed_write (s := setPort .idle v) lane hop hk]; rfl
  · simp only [portEntersFailed, h]
    rfl
  · rcases portEntersFailed_of_waiting (.inl h) with e | e <;> rw [e]
    · rw [handleArrival_failed_write lane hop hk]; rfl
    · rw [handleArrival_failed_write (s := setPort .idle v) lane hop hk]; rfl

theorem portEntersFailed_of_noLane (h : v.host.port = .holding x ∨
      ∃ ask, v.host.port = .reading (.abandoned (some x)) ask)
    (hlow : x.cycle.low = false) (hhigh : x.cycle.high = false) : portEntersFailed v =
      setPort (.completed x.cycle (if x.cycle.kind = .read then some 0xFFFF else none)) v := by
  have awake : v.power.op ≠ .starting := by rw [hop]; decide
  rcases portEntersFailed_of_waiting h with e | e <;> rw [e]
  · exact handleArrival_noLane awake hlow hhigh
  · rw [handleArrival_noLane (s := setPort .idle v) awake hlow hhigh]
    rfl

end EntersFailed

/-- Time changes the stall and the mark of the held cycle, and nothing else at the port (R143). -/
theorem elapse_port (dt : Nat) (s : State) : ∃ g : HeldCycle → HeldCycle,
    (∀ h, heldCycle s = some h → (g h).cycle = h.cycle) ∧
      (elapse dt s).host.port = s.host.port.mapHeld g := by
  cases hs : heldCycle s with
  | none =>
    refine ⟨fun h => h, fun h hh => rfl, ?_⟩
    rw [(elapse_of_none hs dt).1, Port.mapHeld_of_none hs]
  | some h =>
    refine ⟨_, fun h' hh => ?_, by rw [(elapse_of_held hs dt).1]⟩
    obtain rfl := Option.some.inj hh
    rfl

/-- The DIE RESET that was not answered, told and marked (R121). -/
def dieMarkedOffline (d : DieId) (time : Nat) (s : State) : State :=
  setDie d { (record (.dieOffline d) (elapse (1000 - time) s)).dies.get d with offline := true }
    (record (.dieOffline d) (elapse (1000 - time) s))

theorem exec_dieResetTimeout_awaited {s : State} {d : DieId} {cause : ResetCause} {time : Nat}
    (hst : (s.dies.get d).state = .resetting cause time false)
    (hoff : (s.dies.get d).offline = false) :
    exec (.dieResetTimeout d) s = .next (enterFailed (dieMarkedOffline d time s)) := by
  refine congrArg Host.Outcome.next ?_
  simp only [dieResetTimesOut, hst, hoff]
  rfl

theorem exec_dieResetTimeout_other {s : State} {d : DieId}
    (h : (∀ cause time, (s.dies.get d).state ≠ .resetting cause time false) ∨
      (s.dies.get d).offline = true) : exec (.dieResetTimeout d) s = .next s := by
  refine congrArg Host.Outcome.next ?_
  unfold dieResetTimesOut
  split
  next cause time answered hst =>
    refine if_pos ?_
    rcases h with h | h
    · cases answered
      · exact absurd hst (h cause time)
      · rfl
    · simp [h]
  all_goals rfl

theorem dieMarkedOffline_power (d : DieId) (time : Nat) (s : State) :
    (dieMarkedOffline d time s).power = s.power := by
  rw [dieMarkedOffline, record_eq]
  exact elapse_power _ _

theorem dieMarkedOffline_port (d : DieId) (time : Nat) (s : State) :
    (dieMarkedOffline d time s).host.port = (elapse (1000 - time) s).host.port := by
  rw [dieMarkedOffline, record_eq]
  rfl

/-- Settles O52: the resets and their cuts, each time-out by the die's state, and the entry into FAILED
by the port's. -/
theorem timeOutsResetTheDie : Obligations.TimeOutsResetTheDie := by
  intro s d
  refine ⟨?cuts, fun hop => ⟨fun r time hst => ?_, fun run r ab time hst => ?_, fun run hst => ?_,
    fun p run ab time hst => ?_⟩, ?unanswered, exec_dieResetTimeout_other⟩
  case cuts =>
    intro cause cut
    exact ⟨dieReset_eq d cause s, fun r time => cutInProgress_programming,
      fun run => cutInProgress_of_eraseRun, cutInProgress_of_none⟩
  · refine congrArg Host.Outcome.next ((if_neg hop).trans ?_)
    rcases hst with hst | hst <;> simp only [operationTimesOut, hst] <;> rfl
  · refine congrArg Host.Outcome.next ((if_neg hop).trans ?_)
    simp only [operationTimesOut, hst]
    rfl
  · refine congrArg Host.Outcome.next ((if_neg hop).trans ?_)
    simp only [operationTimesOut, hst]
    rfl
  · refine congrArg Host.Outcome.next ((if_neg hop).trans ?_)
    simp only [pauseTimesOut, hst]
    rfl
  case unanswered =>
    intro cause time hst hoff told u v
    have exec_eq := exec_dieResetTimeout_awaited hst hoff
    have power : u.power = s.power := dieMarkedOffline_power d time s
    obtain ⟨g, cycle, timed⟩ := elapse_port (1000 - time) s
    have port : v.host.port = s.host.port.mapHeld g :=
      (dieMarkedOffline_port d time s).trans timed
    have held : heldCycle v = (heldCycle s).map g := heldCycle_of_mapHeld port
    have at_port {p : Port} (hp : s.host.port = p) : v.host.port = p.mapHeld g := by rw [port, hp]
    refine ⟨fun hop => ?_, fun hop => ?_⟩
    · rw [exec_eq]
      exact congrArg Host.Outcome.next (if_pos ((congrArg Power.op power).trans hop))
    · have enters : exec (.dieResetTimeout d) s = .next (portEntersFailed v) := by
        rw [exec_eq]
        exact congrArg Host.Outcome.next
          (if_neg fun h => hop ((congrArg Power.op power).symm.trans h))
      refine ⟨fun hnone hab => ?_, fun ask hask => ?_, fun h hh lane hwrite hread =>
        ⟨fun hk => ?_, fun hk => ?_⟩, fun h hh hlow hhigh => ?_⟩
      · rw [enters, portEntersFailed_of_none (by rw [held, hnone]; rfl)]
        intro ask
        rw [port, Port.mapHeld_of_none hnone]
        exact hab ask
      · rw [enters, portEntersFailed_of_abandoned (at_port hask)]
      · have same := cycle h hh
        have heldv : heldCycle v = some (g h) := by rw [held, hh]; rfl
        have notWriting : v.host.port ≠ .writing (g h) := by
          intro hv
          rcases (heldCycle_iff s h).mp hh with ⟨ask, e⟩ | ⟨ask, e⟩ | e | e
          case inr.inr.inl => exact hwrite h e hk
          all_goals cases (at_port e).symm.trans hv
        rw [enters, portEntersFailed_of_read (v := v) rfl heldv (same.symm ▸ lane)
          (same.symm ▸ hk) notWriting, same]
      · have same := cycle h hh
        have heldv : heldCycle v = some (g h) := by rw [held, hh]; rfl
        have notReading : ∀ ask, v.host.port ≠ .reading (.cycle (g h)) ask := by
          intro ask' hv
          rcases (heldCycle_iff s h).mp hh with ⟨ask, e⟩ | ⟨ask, e⟩ | e | e
          case inl => exact hk (hread h ask e)
          all_goals cases (at_port e).symm.trans hv
        rw [enters, portEntersFailed_of_write (v := v) rfl heldv (same.symm ▸ lane)
          (same.symm ▸ hk) notReading, same]
      · have hheld : heldCycle s = some h := (heldCycle_iff s h).mpr
          (hh.elim (fun h => .inr (.inr (.inr h))) fun h => .inr (.inl h))
        have same := cycle h hheld
        rw [enters, portEntersFailed_of_noLane (v := v) (x := g h) rfl ?_ (same.symm ▸ hlow)
          (same.symm ▸ hhigh), same]
        exact hh.imp at_port fun ⟨ask, h⟩ => ⟨ask, at_port h⟩

/-! ### READY -/

section Ready

variable {s : State} {d : DieId} {cause : ResetCause} {time : Nat}
  (hst : (s.dies.get d).state = .resetting cause time false)
  (hoff : (s.dies.get d).offline = false)
include hst hoff

theorem dieReady_awaited {p : ResetCause → Bool} (hp : p cause = true) : dieReady d p s =
    if s.power.op = .failed then readyDisregarded d s
    else settle (readyBrings d cause (setDieState d .idle s)) := by
  simp [dieReady, readyAwaited, hst, hoff, hp]

theorem dieReady_failed {p : ResetCause → Bool} (hp : p cause = true) (hop : s.power.op = .failed) :
    dieReady d p s = setDieState d (.resetting cause time true) s := by
  rw [dieReady_awaited hst hoff hp, if_pos hop]
  simp only [readyDisregarded, hst]

theorem dieReady_served {p : ResetCause → Bool} (hp : p cause = true) (hop : s.power.op ≠ .failed) :
    dieReady d p s = settle (readyBrings d cause (setDieState d .idle s)) := by
  rw [dieReady_awaited hst hoff hp, if_neg hop]

end Ready

theorem abandonReported_of_erasing {s : State} {d : DieId} {i : SlotItems}
    (h : s.erase.slots.get d = .erasing i) : abandonReported d s = slotRejoins d i s := by
  simp only [abandonReported, h]

theorem abandonReported_of_other {s : State} {d : DieId}
    (h : ∀ i, s.erase.slots.get d ≠ .erasing i) : abandonReported d s = s := by
  unfold abandonReported
  split
  next i hi => exact absurd hi (h i)
  all_goals rfl

theorem pauseTimeoutReported_of_other {s : State} {d : DieId}
    (h : ∀ i, s.erase.slots.get d ≠ .erasing i) : pauseTimeoutReported d s = s := by
  unfold pauseTimeoutReported
  split
  next i hi => exact absurd hi (h i)
  all_goals rfl

theorem pauseTimeoutReported_first {s : State} {d : DieId} {i : SlotItems}
    (h : s.erase.slots.get d = .erasing i) (hl : i.phys ∉ s.erase.pauseList) :
    pauseTimeoutReported d s = slotRejoins d i
      (s.setErase { s.erase with pauseList := s.erase.pauseList ++ [i.phys] }) := by
  simp only [pauseTimeoutReported, h, if_neg hl]

theorem pauseTimeoutReported_again {s : State} {d : DieId} {i : SlotItems}
    (h : s.erase.slots.get d = .erasing i) (hl : i.phys ∈ s.erase.pauseList) :
    pauseTimeoutReported d s = slotRetires d i .erase s := by
  simp only [pauseTimeoutReported, h, if_pos hl]

/-- The relocation engine's TIMEOUT of a RETIRE program goes to the state that awaits it (R88, R90). -/
theorem relocationTimeout_retire_target {u : State} {j : Job} {t : Phys} {g : Gen}
    {x why : RetireReason} (h : u.reloc.engine = .retiringTarget j t g x) (p : Phys) :
    relocationTimeout (.programTag p (.retire why)) u = targetRetireEnds false u := by
  have source : sourceRetireEnds false u = u := by simp only [sourceRetireEnds, h]
  simp only [relocationTimeout, source]

theorem relocationTimeout_retire_source {u : State} {j : Job} {old : Phys} {why : RetireReason}
    (h : u.reloc.engine = .retiringSource j old) (p : Phys) :
    relocationTimeout (.programTag p (.retire why)) u =
      setEngine .idle (record (.programFail old none) u) := by
  have source : sourceRetireEnds false u = setEngine .idle (record (.programFail old none) u) := by
    simp [sourceRetireEnds, h]
  simp only [relocationTimeout, source, targetRetireEnds, setEngine, setReloc_reloc]

/-- Settles O53: READY by its cause, then the requester's delivery by the operation that was cut. -/
theorem readyReportsWhatWasCut : Obligations.ReadyReportsWhatWasCut := by
  intro s d cause time hst hoff u disregarded rejoined
  refine ⟨fun who op held hc => ⟨fun hop => ?_, fun hop => ?timeout⟩,
    fun hc => ⟨fun hop => ?_, fun hop => ⟨fun hother => ?_, fun i hi => ⟨fun hl => ?_, fun hl => ?_⟩⟩⟩,
    fun hc => ⟨fun hop => ?_, fun hop => ⟨fun hother => ?_, fun i hi => ?_⟩⟩⟩
  all_goals subst hc
  case timeout =>
    intro v
    have exec_eq : exec (.dieReadyAfterTimeout d) s =
        .next (settle (if held then abandonReported d v else v)) :=
      congrArg Host.Outcome.next (dieReady_served hst hoff rfl hop)
    refine ⟨fun hnot => ?_, fun i hheld hi => ?_, ?readLine, ?readTag, ?programLine, ?eraseSector,
      ?programTag⟩
    · rw [exec_eq]
      rcases hnot with rfl | hother
      · rfl
      · rw [abandonReported_of_other hother, ite_self]
    · rw [exec_eq, if_pos hheld, abandonReported_of_erasing hi]
      rfl
    case readLine =>
      rintro p pos rfl
      refine ⟨?_, ?_, ?_, ?_⟩
      · rintro h ask rfl hp
        exact (by simp only [portReadTimeout, show u.host.port = _ from hp] :
          portReadTimeout u = issue .hostPort (.readLine ask.phys ask.pos) u)
      · rintro ask rfl hp
        exact (by simp only [portReadTimeout, show u.host.port = _ from hp, portReturns] :
          portReadTimeout u = setPort .idle u)
      · rintro id q rfl hlane
        refine (by simp only [laneReadTimeout, show u.lanes.get d = _ from hlane] :
          laneReadTimeout d u = setLane d .idle (updateEntry id Entry.returned u)).trans rfl
      · rintro rfl
        rfl
    case readTag =>
      rintro p rfl rfl
      rfl
    case programLine =>
      rintro p pos data rfl
      exact ⟨fun hw => by subst hw; rfl, fun hw => by subst hw; rfl⟩
    case eraseSector =>
      rintro p i rfl rfl hi
      exact (by simp only [slotTimeout, show u.erase.slots.get d = _ from hi] :
        slotTimeout d (.eraseSector p) u = eraseFails d i u)
    case programTag =>
      rintro p c rfl
      refine ⟨?_, ?_, ?_, ?_, ?_⟩
      · rintro n rfl rfl; rfl
      · rintro l g rfl rfl; rfl
      · rintro g rfl rfl; rfl
      · rintro g rfl rfl; rfl
      · rintro why rfl
        refine ⟨?_, ?_, ?_, ?_⟩
        · rintro rfl; rfl
        · rintro rfl; rfl
        · rintro j t g x rfl he
          exact relocationTimeout_retire_target (u := u) (why := why) he p
        · rintro j old rfl he
          exact relocationTimeout_retire_source (u := u) (why := why) he p
  · exact congrArg Host.Outcome.next (dieReady_failed hst hoff rfl hop)
  · exact congrArg Host.Outcome.next (dieReady_failed hst hoff rfl hop)
  · exact congrArg Host.Outcome.next ((dieReady_served hst hoff rfl hop).trans
      (congrArg settle (pauseTimeoutReported_of_other (s := u) hother)))
  · exact congrArg Host.Outcome.next ((dieReady_served hst hoff rfl hop).trans
      (congrArg settle (pauseTimeoutReported_first (s := u) hi hl)))
  · exact congrArg Host.Outcome.next ((dieReady_served hst hoff rfl hop).trans
      (congrArg settle (pauseTimeoutReported_again (s := u) hi hl)))
  · exact congrArg Host.Outcome.next (dieReady_failed hst hoff rfl hop)
  · exact congrArg Host.Outcome.next ((dieReady_served hst hoff rfl hop).trans
      (congrArg settle (abandonReported_of_other (s := u) hother)))
  · exact congrArg Host.Outcome.next ((dieReady_served hst hoff rfl hop).trans
      (congrArg settle (abandonReported_of_erasing (s := u) hi)))

end Sys2Proof.Machine
end

section
/-!
PROOFS. The bytes of section 11.9: numbers, codes and flags, the status block, the answers of the queries
and the fault record.
-/

namespace Sys2Proof.Machine

open Sys2Proof

/-! ### Numbers and flags -/

@[simp] theorem beBytes_one (n : Nat) : beBytes 1 n = [BitVec.ofNat 8 n] := by simp [beBytes]

@[simp] theorem beBytes_two (n : Nat) :
    beBytes 2 n = [BitVec.ofNat 8 (n / 256), BitVec.ofNat 8 n] := by simp [beBytes]

@[simp] theorem beBytes_three (n : Nat) : beBytes 3 n =
    [BitVec.ofNat 8 (n / 65536), BitVec.ofNat 8 (n / 256), BitVec.ofNat 8 n] := by simp [beBytes]

@[simp] theorem beBytes_four (n : Nat) : beBytes 4 n =
    [BitVec.ofNat 8 (n / 16777216), BitVec.ofNat 8 (n / 65536), BitVec.ofNat 8 (n / 256),
      BitVec.ofNat 8 n] := by simp [beBytes]

theorem beBytes_length (n v : Nat) : (beBytes n v).length = n := by
  induction n with
  | zero => rfl
  | succ n ih => rw [beBytes, List.length_cons, ih]

theorem boolByte_eq (b : Bool) : boolByte b = [BitVec.ofNat 8 (if b then 1 else 0)] := by
  cases b <;> rfl

theorem fieldOr_none {α : Type} (n : Nat) (f : α → Nat) :
    fieldOr n none f = List.replicate n 0xFF#8 := rfl

theorem fieldOr_some {α : Type} (n : Nat) (x : α) (f : α → Nat) :
    fieldOr n (some x) f = beBytes n (f x) := rfl

/-! ### Lengths -/

section Lengths

theorem physBytes_length (p : Option Phys) : (physBytes p).length = 2 := by cases p <;> rfl

theorem sectorBytes_length (l : Option Sector) : (sectorBytes l).length = 2 := by cases l <;> rfl

theorem genBytes_length (g : Option Gen) : (genBytes g).length = 4 := by cases g <;> rfl

theorem boolByte_length (b : Bool) : (boolByte b).length = 1 := by cases b <;> rfl

theorem lastLong_statusBytes_length (x : Option LastLong) : (LastLong.statusBytes x).length = 4 := by
  rcases x with _ | ⟨_ | l, done⟩ <;> simp [LastLong.statusBytes, boolByte_length, absent,
    sectorBytes_length]

theorem slot_statusBytes_length (x : Slot) : x.statusBytes.length = 4 := by
  cases x <;> simp [Slot.statusBytes, Slot.items, byte1, boolByte_length, physBytes_length, absent]

theorem opBytes_length (x : DieState) : x.opBytes.length = 2 := by
  cases x <;> rfl

theorem die_statusBytes_length (x : Die) : x.statusBytes.length = 8 := by
  unfold Die.statusBytes
  split <;> simp [byte1, opBytes_length, boolByte_length, absent]

theorem relocationStatus_length (s : State) : (relocationStatus s).length = 15 := by
  unfold relocationStatus
  cases s.reloc.engine <;>
    simp [Engine.job, Engine.target, Engine.position, byte1, sectorBytes_length, physBytes_length,
      genBytes_length, absent]

theorem statusBlock_length (s : State) : (statusBlock s).length = 76 := by
  simp [statusBlock, statusHead, setsStatus, byte1, flagByte, lastLong_statusBytes_length,
    relocationStatus_length, slot_statusBytes_length, die_statusBytes_length]

end Lengths

/-! ### The answers -/

section Serving

variable {s : State} (hop : s.power.op = .running ∨ s.power.op = .powerdown)
include hop

/-- A command that the operating state does not refuse is answered (R168). -/
theorem unlessRefused_serving (command : Byte) (answer : State → State) :
    unlessRefused command answer s = answer s := by
  rw [unlessRefused, stateRefusal_of_serving hop]

end Serving

theorem unlessStarting_of_not {s : State} (h : s.power.op ≠ .starting) (command : Byte)
    (answer : State → State) : unlessStarting command answer s = answer s := if_neg h

theorem answerMapQuery_of_sector {n : BitVec 16} {l : Sector} (h : n.toNat = l.val) (s : State) :
    answerMapQuery n s = respond .ok 0x30 (mapBytes s l) s := by
  have below : n.toNat < 1024 := h ▸ l.isLt
  rw [answerMapQuery, dif_pos below, show (⟨n.toNat, below⟩ : Sector) = l from Fin.ext h]

theorem answerSectorQuery_of_phys {n : BitVec 16} {p : Phys} (h : n.toNat = p.val) (s : State) :
    answerSectorQuery n s = respond .ok 0x31 (physSectorBytes s p) s := by
  have below : n.toNat < 1056 := h ▸ p.isLt
  rw [answerSectorQuery, dif_pos below, show (⟨n.toNat, below⟩ : Phys) = p from Fin.ext h]

theorem answerReadRegion_of_index {index : Byte} {i : Fin 16} (h : index.toNat = i.val) (s : State) :
    answerReadRegion index s = respond .ok 0x10 (regionAt s i).bytes s := by
  simp only [answerReadRegion, regionIndex_of_toNat h]

theorem answerReadRegion_of_noIndex {index : Byte} (h : 16 ≤ index.toNat) (s : State) :
    answerReadRegion index s = respond .invalid 0x10 [] s := by
  simp only [answerReadRegion, regionIndex_eq_none h]

/-! ### The status block -/

/-- Six flags in one byte, bit 0 first. -/
theorem flagByte_six (a b c d e f : Bool) : flagByte [a, b, c, d, e, f] =
    [BitVec.ofNat 8 ((if a then 1 else 0) + (if b then 2 else 0) + (if c then 4 else 0) +
      (if d then 8 else 0) + (if e then 16 else 0) + (if f then 32 else 0))] := by
  revert a b c d e f
  decide

theorem flagByte_three (a b c : Bool) : flagByte [a, b, c] =
    [BitVec.ofNat 8 ((if a then 1 else 0) + (if b then 2 else 0) + (if c then 4 else 0))] := by
  revert a b c
  decide

/-- The byte of a lane (R60). -/
theorem lane_code_byte (x : Lane) : (x = .idle → BitVec.ofNat 8 x.code = 0x00#8) ∧
    (∀ id p, x = .reading id p → BitVec.ofNat 8 x.code = 0x01#8) ∧
    ∀ id p medium target, x = .programming id p medium target → BitVec.ofNat 8 x.code = 0x02#8 := by
  refine ⟨?_, ?_, ?_⟩
  · rintro rfl; rfl
  · rintro id p rfl; rfl
  · rintro id p medium target rfl; rfl

/-- The engine's bytes by its job, its target and its position (R98). -/
theorem relocationStatus_eq (s : State) : relocationStatus s =
    byte1 s.reloc.engine.code ++
      fieldOr 1 (s.reloc.engine.job.map (·.reason)) RelocReason.code ++
      fieldOr 2 (s.reloc.engine.job.map (·.sector)) (·.val) ++
      fieldOr 2 s.reloc.engine.target (·.val) ++
      fieldOr 1 (s.reloc.engine.job.map (·.failedTargets)) (·) ++
      fieldOr 2 s.reloc.engine.position (·.val) ++
      (beBytes 2 s.reloc.queue.length ++ fieldOr 4 s.reloc.generation (·.toNat)) := by
  have phys (x : Option Phys) : physBytes x = fieldOr 2 x (·.val) := by cases x <;> rfl
  have gen (x : Option Gen) : genBytes x = fieldOr 4 x (·.toNat) := by cases x <;> rfl
  unfold relocationStatus
  rw [phys, gen]
  cases s.reloc.engine <;> simp [Engine.job, Engine.position, fieldOr, byte1, sectorBytes, absent]

/-! ### The queries -/

/-- The place of the first of a list to meet a condition. -/
theorem findIdx?_of_first {α : Type} {p : α → Bool} {before after : List α} {x : α}
    (hx : p x = true) (hbefore : ∀ y ∈ before, p y = false) :
    (before ++ x :: after).findIdx? p = some before.length := by
  induction before with
  | nil => simp [List.findIdx?_cons, hx]
  | cons y rest ih =>
    rw [List.cons_append, List.findIdx?_cons, hbefore y List.mem_cons_self,
      ih fun z hz => hbefore z (List.mem_cons_of_mem _ hz)]
    rfl

theorem queuePosition_of_spare {s : State} {p : Phys} {before after : List Phys}
    (h : s.acct.pool = before ++ p :: after) (hp : p ∉ before) :
    queuePosition s p = some before.length := by
  have found := findIdx?_of_first (p := (· == p)) (x := p) (after := after) (beq_self_eq_true p)
    (fun y hy => beq_false_of_ne fun e => hp (e ▸ hy))
  rw [queuePosition, h, found]
  rfl

section NotSpare

variable {s : State} {p : Phys} (hp : p ∉ s.acct.pool)
include hp

theorem queuePosition_of_not_spare :
    queuePosition s p = s.acct.eraseQueue.findIdx? fun r => r.phys == p := by
  have none : s.acct.pool.findIdx? (· == p) = none :=
    List.findIdx?_eq_none_iff.mpr fun x hx => beq_false_of_ne fun e => hp (e ▸ hx)
  rw [queuePosition, none]
  rfl

theorem queuePosition_of_queued {before after : List EraseRecord} {x : EraseRecord}
    (h : s.acct.eraseQueue = before ++ x :: after) (hbefore : ∀ y ∈ before, y.phys ≠ p)
    (hx : x.phys = p) : queuePosition s p = some before.length := by
  rw [queuePosition_of_not_spare hp, h]
  exact findIdx?_of_first (by simp [hx]) fun y hy => beq_false_of_ne (hbefore y hy)

theorem queuePosition_of_none (h : ∀ x ∈ s.acct.eraseQueue, x.phys ≠ p) :
    queuePosition s p = none := by
  rw [queuePosition_of_not_spare hp]
  exact List.findIdx?_eq_none_iff.mpr fun x hx => beq_false_of_ne (h x hx)

end NotSpare

theorem retiredReason_of_none {s : State} {p : Phys} (h : ∀ x ∈ s.acct.retired, x.phys ≠ p) :
    retiredReason s p = none := by
  rw [retiredReason, List.find?_eq_none.mpr fun x hx => by simp [h x hx]]
  rfl

theorem retiredReason_of_first {s : State} {p : Phys} {before after : List RetiredRecord}
    {x : RetiredRecord} (h : s.acct.retired = before ++ x :: after)
    (hbefore : ∀ y ∈ before, y.phys ≠ p) (hx : x.phys = p) :
    retiredReason s p = some x.reason := by
  have found : s.acct.retired.find? (fun r => r.phys == p) = some x :=
    List.find?_eq_some_iff_append.mpr ⟨by simp [hx], before, after, h,
      fun y hy => by simp [hbefore y hy]⟩
  rw [retiredReason, found]
  rfl

theorem flightReason_of_job {s : State} {l : Sector} {j : Job}
    (h : s.reloc.engine.beforeSwitch = some j) (hl : j.sector = l) :
    flightReason s l = some j.reason := by
  have job : s.reloc.engine.job = some j := by
    cases he : s.reloc.engine <;> simp_all [Engine.beforeSwitch, Engine.job]
  simp only [flightReason, job, if_pos hl]

/-- Settles O54: the answers from the state as it stands, then the bytes of each field by its cases. -/
theorem reportsChangeNothing : Obligations.ReportsChangeNothing := by
  unfold Obligations.ReportsChangeNothing
  intro b1 be2 be3 be4 ff bit
  refine ⟨fun s => ?answers, by decide, by decide, fun p pos data c => rfl, fun s => ?block,
    fun done => ?lastLong, fun s j t g pos pending why => ?engine, fun i why => ?slots,
    fun ws offline reported r run p abandon answered cause time => ?dies,
    fun s h c w ask => ?port, fun r => ?region, fun s l => ?map, fun s p => ?phys, fun c => ?counters,
    fun q n i l p d count why => ?record⟩
  case answers =>
    intro answer
    refine ⟨rfl, fun hop => congrArg Host.Outcome.next (unlessStarting_of_not hop _ _),
      fun hop => ⟨fun index => ⟨fun i hi => ?_, fun hi => ?_⟩, fun n => ⟨fun l hl => ?_, fun hl => ?_⟩,
        fun n => ⟨fun p hp => ?_, fun hp => ?_⟩⟩, statusBlock_length s⟩
    all_goals refine congrArg Host.Outcome.next ((unlessRefused_serving hop _ _).trans ?_)
    · exact answerReadRegion_of_index hi s
    · exact answerReadRegion_of_noIndex hi s
    · exact answerMapQuery_of_sector hl s
    · exact dif_neg (by omega)
    · exact answerSectorQuery_of_phys hp s
    · exact dif_neg (by omega)
  case block =>
    intro members lane
    refine ⟨_, _, lane_code_byte (s.lanes.get .die0), lane_code_byte (s.lanes.get .die1), ?_⟩
    simp only [statusBlock, statusHead, setsStatus, byte1, flagByte_six, beBytes_two, setCount,
      List.flatMap_cons, List.flatMap_nil, List.append_assoc, List.append_nil]
    rfl
  case lastLong =>
    exact ⟨rfl, by cases done <;> rfl, fun l => by cases done <;> simp [LastLong.statusBytes,
      boolByte, sectorBytes, bit, be2]⟩
  case engine =>
    intro job failed
    refine ⟨beBytes 2 s.reloc.queue.length ++ fieldOr 4 s.reloc.generation (·.toNat), fun hg => ?_,
      fun g hg => ?_, ?_⟩
    · rw [hg, beBytes_two]; rfl
    · rw [hg, beBytes_two, fieldOr_some, beBytes_four]
    rw [relocationStatus_eq]
    refine ⟨fun h => ?_, fun h => ?_, fun h => ?_, fun h => ?_, fun h => ?_, fun h => ?_,
      fun h => ?_⟩
    all_goals
      rw [h]
      simp [Engine.code, Engine.job, Engine.target, Engine.position, fieldOr, byte1, absent, b1, be2,
        ff, job, failed]
  case slots =>
    intro items
    refine ⟨rfl, ?_, ?_, ?_⟩ <;>
      simp [Slot.statusBytes, Slot.code, Slot.items, byte1, boolByte_eq, physBytes, items, b1, be2, bit]
  case dies =>
    intro bytes waiting asked erase
    have progress : boolByte (progressInterval ≤ run.progress) =
        b1 (bit (decide (400 ≤ run.progress)) 1) := boolByte_eq _
    refine ⟨?_, ?_, ?_, ?_, ?_, ?_, ?_, ?_, ?_⟩ <;>
      simp [bytes, Die.statusBytes, DieState.code, DieState.opBytes, DieState.eraseRun, byte1,
        progress, absent, waiting, asked, erase, b1, bit, ff]
  case port =>
    intro codes
    refine ⟨?_, ?_, ?_, ?_, ?_, ?_, fun hop => ?_, fun hop => ?_, ?_⟩ <;>
      · intro hp
        simp only [heldCycleCode, hp, Port.code]
        simp [*]
  case region =>
    simp [Region.bytes, byte1, boolByte_eq, b1, be2, bit]
  case map =>
    refine ⟨boolByte (mapEntry s l).binding.isSome ++ physBytes ((mapEntry s l).binding.map (·.phys)) ++
      genBytes ((mapEntry s l).binding.map (·.gen)), relocFieldBytes s l,
      (mapEntry s l).reloc.backingPending, ?_⟩
    intro e
    refine ⟨?_, fun hb => ?_, fun b hb => ?_, fun hr => ?_, fun r hr => ?_, fun t b hr => ⟨?_, ?_⟩⟩
    · rw [mapBytes, flagByte_three]
    · rw [show (mapEntry s l).binding = none from hb]; rfl
    · rw [show (mapEntry s l).binding = some b from hb]
      simp [boolByte, physBytes, genBytes, be2, be4, be3]
    · simp [relocFieldBytes, show (mapEntry s l).reloc = _ from hr, RelocField.backingPending, absent,
        ff]
    · simp [relocFieldBytes, show (mapEntry s l).reloc = _ from hr, RelocField.backingPending, absent,
        byte1, b1, ff]
    · simp [show (mapEntry s l).reloc = _ from hr, RelocField.backingPending]
    · refine ⟨fieldOr 1 (flightReason s l) RelocReason.code, physBytes t, ?_, ?_, ?_, ?_⟩
      · simp [relocFieldBytes, show (mapEntry s l).reloc = _ from hr]
      · rintro rfl; rfl
      · rintro p rfl; simp [physBytes, be2]
      · intro j hj hl
        simp [flightReason_of_job hj hl, fieldOr, b1]
  case phys =>
    refine ⟨fieldOr 1 (membershipOf s p) Membership.code ++
      fieldOr 3 ((Table.find s.acct.recs p.val).map (·.count)) (·.toNat),
      fieldOr 1 (retiredReason s p) (·.code.toNat), fieldOr 2 (queuePosition s p) (·), rfl,
      fun hn => ?_, fun m n hs => ?_, fun hr => ?_, fun before x after hr hbefore hx => ?_,
      fun before after hq hp => ?_, fun hp => ⟨fun before x after hq hbefore hx => ?_, fun hq => ?_⟩⟩
    · rw [membershipOf, hn]; rfl
    · simp [membershipOf, hs, fieldOr, b1, be3, be2]
    · rw [retiredReason_of_none hr]; rfl
    · rw [retiredReason_of_first hr hbefore hx]
      simp [fieldOr]
    · rw [queuePosition_of_spare hq hp]
      simp [fieldOr, be2]
    · rw [queuePosition_of_queued hp hq hbefore hx]
      simp [fieldOr, be2]
    · rw [queuePosition_of_none hp hq]; rfl
  case counters => simp [Counters.bytes, be4, be3, be2]
  case record =>
    intro is
    refine ⟨?_, ?_, ?_, ?_, ?_, ?_, ?_, ?_, ?_, ?_, ?_, ?_, ?_⟩ <;>
      simp [is, FaultRecord.bytes, RecordBody.fields, RecordFields.bare, fieldOr, flagByte, byte1,
        absent, b1, be2, be3, ff]

end Sys2Proof.Machine
end

section
/-!
PROOFS. The management link's commands (chapter 11) that set, release and report faults, the frames it
refuses, and the region lookup with the pins.
-/

namespace Sys2Proof.Machine

open Sys2Proof

/-! ### Frames and refusals -/

theorem judgeFrame_badCheck {bytes : List Byte} (h : bytes.length < 3 ∨
    (∃ code n rest, bytes = code :: n :: rest ∧ rest.length ≠ n.toNat + 1) ∨
    bytes.getLast? ≠ some (crc8 bytes.dropLast)) : judgeFrame bytes = .badCheck := by
  match bytes with
  | [] => rfl
  | [_] => rfl
  | code :: n :: rest =>
    rw [judgeFrame]
    by_cases hlen : rest.length ≠ n.toNat + 1
    · rw [if_pos hlen]
    · rw [if_neg hlen]
      refine if_pos ?_
      rcases h with h | ⟨code', n', rest', heq, hne⟩ | h
      · simp only [List.length_cons] at h
        omega
      · injection heq with _ heq
        injection heq with hn hrest
        exact absurd (hrest ▸ hn ▸ hne) hlen
      · exact h

theorem withCheck_dropLast (bytes : List Byte) : (withCheck bytes).dropLast = bytes :=
  List.dropLast_concat

theorem withCheck_getLast? (bytes : List Byte) :
    (withCheck bytes).getLast? = some (crc8 bytes) := List.getLast?_concat

/-- A frame with its length and its check is judged by its code and its parameters (R167). -/
theorem judgeFrame_withCheck (code : Byte) {params : List Byte} (h : params.length < 256) :
    judgeFrame (withCheck (code :: BitVec.ofNat 8 params.length :: params)) =
      (parseCommand code params).elim (.invalid code) .command := by
  have frame : withCheck (code :: BitVec.ofNat 8 params.length :: params) =
      code :: BitVec.ofNat 8 params.length ::
        (params ++ [crc8 (code :: BitVec.ofNat 8 params.length :: params)]) := rfl
  have check := withCheck_getLast? (code :: BitVec.ofNat 8 params.length :: params)
  have rest := withCheck_dropLast (code :: BitVec.ofNat 8 params.length :: params)
  rw [frame] at check rest ⊢
  have length : (params ++ [crc8 (code :: BitVec.ofNat 8 params.length :: params)]).length =
      (BitVec.ofNat 8 params.length).toNat + 1 := by
    rw [List.length_append, BitVec.toNat_ofNat, Nat.mod_eq_of_lt h]
    rfl
  rw [judgeFrame, if_neg (not_not.mpr length), rest, check, if_neg (not_not.mpr rfl),
    List.dropLast_concat]
  cases parseCommand code params <;> rfl

theorem judgeFrame_invalid {code : Byte} {params : List Byte} (h : params.length < 256)
    (hp : parseCommand code params = none) :
    judgeFrame (withCheck (code :: BitVec.ofNat 8 params.length :: params)) = .invalid code := by
  rw [judgeFrame_withCheck code h, hp]
  rfl

theorem exec_badCommandFrame_check {bytes : List Byte} (h : judgeFrame bytes = .badCheck)
    (s : State) : exec (.badCommandFrame bytes) s = .next (respond .check 0xFF [] s) := by
  change execBadCommandFrame bytes s = _
  rw [execBadCommandFrame, h]
  rfl

theorem exec_badCommandFrame_invalid {bytes : List Byte} {code : Byte}
    (h : judgeFrame bytes = .invalid code) (s : State) :
    exec (.badCommandFrame bytes) s = .next (respond .invalid code [] s) := by
  change execBadCommandFrame bytes s = _
  rw [execBadCommandFrame, h]

section Refused

variable {s : State} (command : Byte) (answer : State → State)

theorem unlessRefused_starting (h : s.power.op = .starting) :
    unlessRefused command answer s = respond .starting command [] s := by
  simp [unlessRefused, stateRefusal, h]

theorem unlessRefused_failed (h : s.power.op = .failed) :
    unlessRefused command answer s = respond .refused command [] s := by
  simp [unlessRefused, stateRefusal, h]

theorem unlessBusy_starting (h : s.power.op = .starting) :
    unlessBusy command answer s = respond .starting command [] s :=
  unlessRefused_starting command _ h

theorem unlessBusy_failed (h : s.power.op = .failed) :
    unlessBusy command answer s = respond .refused command [] s :=
  unlessRefused_failed command _ h

theorem unlessBusy_busy (hop : s.power.op = .running ∨ s.power.op = .powerdown)
    (h : commandInProgress s = true) : unlessBusy command answer s = respond .busy command [] s := by
  rw [unlessBusy, unlessRefused_serving hop]
  simp [h]

theorem unlessBusy_ready (hop : s.power.op = .running ∨ s.power.op = .powerdown)
    (h : commandInProgress s = false) : unlessBusy command answer s = answer s := by
  rw [unlessBusy, unlessRefused_serving hop]
  simp [h]

theorem unlessStarting_starting (h : s.power.op = .starting) :
    unlessStarting command answer s = respond .starting command [] s := if_pos h

end Refused

/-- In STARTING every command but STATUS is answered STARTING (R168). -/
theorem exec_starting {s : State} (h : s.power.op = .starting) {c : Instr} {code : Byte}
    {params : List Byte} (hc : commandParts c = some (code, params)) (hstatus : c ≠ .status) :
    exec c s = .next (respond .starting code [] s) := by
  cases c <;> cases hc
  case status => exact absurd rfl hstatus
  case flush | releaseSector => exact congrArg Host.Outcome.next (unlessBusy_starting _ _ h)
  case readCounters | readFault => exact congrArg Host.Outcome.next (unlessStarting_starting _ _ h)
  all_goals exact congrArg Host.Outcome.next (unlessRefused_starting _ _ h)

/-- In FAILED the three reports of R168 alone are answered. -/
theorem exec_failed {s : State} (h : s.power.op = .failed) {c : Instr} {code : Byte}
    {params : List Byte} (hc : commandParts c = some (code, params)) (hstatus : c ≠ .status)
    (hfault : c ≠ .readFault) (hcounters : c ≠ .readCounters) :
    exec c s = .next (respond .refused code [] s) := by
  cases c <;> cases hc
  case status => exact absurd rfl hstatus
  case readFault => exact absurd rfl hfault
  case readCounters => exact absurd rfl hcounters
  case flush | releaseSector => exact congrArg Host.Outcome.next (unlessBusy_failed _ _ h)
  all_goals exact congrArg Host.Outcome.next (unlessRefused_failed _ _ h)

/-- Settles O59: the verdict on the bytes, then each command's own check of the state. -/
theorem refusedCommandsOnlyAnswer : Obligations.RefusedCommandsOnlyAnswer := by
  intro s
  refine ⟨fun bytes => ⟨fun h => exec_badCommandFrame_check (judgeFrame_badCheck h) s, ?_⟩,
    fun c code params hc hstatus => ⟨fun h => exec_starting h hc hstatus,
      fun h hfault hcounters => exec_failed h hc hstatus hfault hcounters, fun hbusy hop hlong => ?_⟩⟩
  · rintro code params rfl hlen hp
    exact exec_badCommandFrame_invalid (judgeFrame_invalid hlen hp) s
  · rcases hlong with rfl | ⟨n, rfl⟩ <;> cases hc <;>
      exact congrArg Host.Outcome.next (unlessBusy_busy _ _ hop hbusy)

/-! ### READ FAULT -/

theorem exec_readFault {s : State} (hop : s.power.op ≠ .starting) :
    exec .readFault s = .next (answerReadFault s) :=
  congrArg Host.Outcome.next (unlessStarting_of_not hop _ _)

theorem answerReadFault_of_some {s : State} {r : FaultRecord} {rest : List FaultRecord}
    (h : s.link.faults = r :: rest) : answerReadFault s =
      respond .ok 0x22 (s.link.overflow :: r.bytes)
        (s.setLink { s.link with faults := rest, overflow := 0 }) := by
  simp only [answerReadFault, h]

theorem answerReadFault_of_none {s : State} (h : s.link.faults = []) : answerReadFault s =
    respond .empty 0x22 (s.link.overflow :: List.replicate 16 0xFF)
      (s.setLink { s.link with overflow := 0 }) := by
  simp only [answerReadFault, h]
  rfl

theorem answerReadFault_queue (s : State) : (answerReadFault s).link.faults = s.link.faults.tail ∧
    (answerReadFault s).link.sequence = s.link.sequence := by
  cases h : s.link.faults with
  | nil => rw [answerReadFault_of_none h]; exact ⟨h, rfl⟩
  | cons r rest => rw [answerReadFault_of_some h]; exact ⟨rfl, rfl⟩

/-- Settles O57: the answer by whether a record stands, and a record that comes before or after it. -/
theorem readFaultRemovesOldest : Obligations.ReadFaultRemovesOldest := by
  intro s hop
  refine ⟨fun r rest h => ?some, fun h => ⟨?none, fun b => ?first⟩, fun hlen b => ?second⟩
  case some => rw [exec_readFault hop, answerReadFault_of_some h]; rfl
  case none => rw [exec_readFault hop, answerReadFault_of_none h]; rfl
  case first =>
    have recorded : record b s = s.setLink { s.link with
        faults := [⟨s.link.sequence, b⟩], sequence := s.link.sequence + 1 } := by
      rw [record_eq, Link.recorded_of_room b (by simp [h]), h]
      rfl
    generalize record b s = u at recorded
    have faults : u.link.faults = [⟨s.link.sequence, b⟩] := by rw [recorded]; rfl
    have overflow : u.link.overflow = s.link.overflow := by rw [recorded]; rfl
    refine ⟨_, exec_readFault (by rw [recorded]; exact hop), ?_⟩
    rw [answerReadFault_of_some faults, overflow]
    exact ⟨rfl, rfl⟩
  case second =>
    obtain ⟨faults, sequence⟩ := answerReadFault_queue s
    refine ⟨_, exec_readFault hop, ?_⟩
    rw [record_eq, Link.recorded_of_room b (by rw [faults, List.length_tail]; omega)]
    simp only [setLink_link, faults, sequence]

/-! ### The region lookup, the pins and the read transaction -/

theorem governs_iff (r : Region) (p : Page) :
    r.governs p = true ↔ r.enabled = true ∧ r.first ≤ p ∧ p ≤ r.last := by
  simp [Region.governs, and_assoc]

/-- Settles O60: the lookup by the lowest index, the pins by their fields, the response by position. -/
theorem lookupAndPinsFollowState : Obligations.LookupAndPinsFollowState := by
  refine ⟨fun s p => ?lookup, fun s => ⟨?drained, ?attn⟩, fun s n => ?read,
    fun s n address h => if_neg h⟩
  case lookup =>
    intro contains
    have governs (i : Fin 16) : (regionAt s i).governs p = true ↔ contains i := governs_iff _ _
    refine ⟨fun i hi hfirst => ?_, fun hnone => ?_⟩
    · have found : governing s p = some i :=
        find?_finRange_of_first ((governs i).mpr hi) fun x hx => by
          rw [Bool.eq_false_iff]
          exact mt (governs x).mp (hfirst x hx)
      exact ⟨found, by rw [modeAt, found]⟩
    · have found : governing s p = none := List.find?_eq_none.mpr fun x _ => by
        rw [governs]
        exact hnone x
      exact ⟨found, by rw [modeAt, found]⟩
  case drained => simp [drainedPin, and_assoc]
  case attn => simp [attn, Option.isSome_iff_ne_none, or_assoc]
  case read =>
    refine ⟨_, if_pos rfl, by simp; omega, fun i hi => ?_⟩
    by_cases hin : i < s.link.response.length
    · have taken : i < (s.link.response.take n).length := by
        simp only [List.length_append, List.length_take, List.length_replicate] at hi
        rw [List.length_take]
        omega
      rw [List.getElem_append_left taken, List.getElem_take, List.getD_eq_getElem _ _ hin]
    · have past : (s.link.response.take n).length ≤ i := by
        rw [List.length_take]
        omega
      rw [List.getElem_append_right past, List.getElem_replicate, List.getD_eq_default _ _ (by omega)]
      rfl

end Sys2Proof.Machine
end

section
/-!
PROOFS. What the reset leaves (R155), the commands that set (R173, R176), and RELEASE SECTOR (R171).
-/

namespace Sys2Proof.Machine

open Sys2Proof

/-! ### The state after a reset -/

/-- Where no sector is in a set, bound or at work, and no die has an operation of the scanner, the
accounting is sound. -/
theorem SectorsAccounted.of_empty {s : State} (map : s.map = [])
    (acct : s.acct = { recs := [], pool := [], eraseQueue := [], retired := [] })
    (entries : s.wmb.entries = []) (lanes : s.lanes = ⟨.idle, .idle⟩)
    (reloc : s.reloc.queue = [] ∧ s.reloc.engine = .idle) (slots : s.erase.slots = ⟨.idle, .idle⟩)
    (release : s.release = none) (scan : s.scan = Scanner.atReset)
    (asks : ∀ d, scannerOps (s.dies.get d) = []) : SectorsAccounted s := by
  have member (p : Phys) : membershipOf s p = none := by rw [membershipOf, acct]; rfl
  have unbound (l : Sector) : boundPhys s l = none := by rw [boundPhys, mapEntry, map]; rfl
  have noItems (d : DieId) : (s.erase.slots.get d).items = none := by rw [slots]; cases d <;> rfl
  have noLane (d : DieId) : s.lanes.get d = .idle := by rw [lanes]; cases d <;> rfl
  constructor
  · constructor
    case slotDie => simp [noItems]
    case target => simp [member, reloc.2, Engine.target]
    all_goals simp [member, unbound, noItems, acct]
  · constructor
    · constructor <;> simp [reloc, Engine.beforeSwitch, release, entries, noLane]
    · constructor
      case asks => exact fun d => .inl (asks d)
      all_goals simp [scan, Scanner.atReset, Table.find]

/-- Settles O3: the tables and the blocks are empty. -/
theorem resetHasInvariants : Obligations.ResetHasInvariants := by
  have orderly : WmbOrderly State.reset.wmb := by
    constructor <;> simp [State.reset, wmbSize, highWater]
  have canonical : TablesCanonical State.reset := by constructor <;> decide
  have quiet : StartingQuiet State.reset := by constructor <;> (intro _; decide)
  refine ⟨canonical, fun c hc => absurd hc List.not_mem_nil, orderly, ⟨trivial, trivial⟩, quiet,
    ⟨by decide, by decide⟩, ?_⟩
  exact SectorsAccounted.of_empty rfl rfl rfl rfl ⟨rfl, rfl⟩ rfl rfl rfl fun d => by cases d <;> rfl

/-! ### The commands that set -/

/-- Sealing takes the entries it seals out of OPEN. -/
theorem countP_isOpen_sealedBy {q : Entry → Bool} (hq : ∀ e, q e = true → e.isOpen = true) (n : Nat)
    (es : List Entry) :
    (sealedBy q n es).countP Entry.isOpen + es.countP q = es.countP Entry.isOpen := by
  induction es generalizing n with
  | nil => rfl
  | cons e rest ih =>
    rw [sealedBy, List.countP_cons, List.countP_cons]
    by_cases h : q e = true
    · rw [if_pos h, List.countP_cons, if_pos h, if_pos (hq e h), if_neg (by simp [Entry.isOpen]),
        ← ih (n + 1)]
      omega
    · rw [if_neg h, List.countP_cons, if_neg h, ← ih n]
      omega

theorem overdue_iff (delay : BitVec 16) (e : Entry) :
    overdue delay e = true ↔ ∃ age, e.stage = .opened age ∧ delay.toNat ≤ age := by
  cases h : e.stage <;> simp [overdue, h]

theorem isOpen_of_overdue {delay : BitVec 16} {e : Entry} (h : overdue delay e = true) :
    e.isOpen = true := by
  obtain ⟨age, hage, -⟩ := (overdue_iff delay e).mp h
  simp [Entry.isOpen, hage]

/-- Where no entry meets the condition none is sealed. -/
theorem sealWhere_of_none {p : Entry → Bool} {s : State}
    (h : ∀ e ∈ s.wmb.entries, (e.isOpen && p e) = false) : sealWhere p s = s := by
  rw [sealWhere, List.filter_eq_nil_iff.mpr fun e he => by simp [h e he]]
  rfl

/-- Where no held cycle's stall has newly reached the threshold nothing is counted. -/
theorem countStall_of_early {s : State}
    (h : ∀ c, heldCycle s = some c → c.counted = true ∨ c.stall < s.host.threshold.toNat) :
    countStall s = s := by
  unfold countStall
  split
  next c hc =>
    rw [if_neg]
    rcases h c hc with hcount | hstall
    · simp [hcount]
    · simp [Nat.not_le.mpr hstall]
  next => rfl

/-- The state in which SET TIMING seals and counts. -/
def retimed (delay threshold : BitVec 16) (s : State) : State :=
  (s.setWmb { s.wmb with commitDelay := delay }).setHost { s.host with threshold := threshold }

theorem answerSetTiming_of_ne {threshold : BitVec 16} (h : threshold ≠ 0) (delay : BitVec 16)
    (s : State) : answerSetTiming delay threshold s =
      respond .ok 0x40 [] (countStall (sealWhere (overdue delay) (retimed delay threshold s))) :=
  if_neg h

/-- The sealing of the overdue entries, in an operating state other than FAILED. -/
theorem sealOverdue_retimed {s : State} (hw : WmbOrderly s.wmb) (hop : s.power.op ≠ .failed)
    (delay threshold : BitVec 16) :
    let set := retimed delay threshold s
    let sealed := sealWhere (overdue delay) set
    let count := s.wmb.entries.countP (overdue delay)
    sealed = { set with
        wmb := { set.wmb with
          entries := sealedOverdue delay.toNat s.wmb.sealCounter s.wmb.entries
          sealCounter := s.wmb.sealCounter + count }
        map := sealed.map, reloc := sealed.reloc } ∧
      sealed.wmb.entries.countP Entry.isOpen + count = s.wmb.entries.countP Entry.isOpen ∧
      asksBacking (fun e => ∃ age, e.stage = .opened age ∧ delay.toNat ≤ age) s sealed := by
  intro set sealed count
  have orderly : WmbOrderly set.wmb :=
    ⟨hw.size, hw.openCount, hw.rising, hw.openBelow, hw.sealBelow, hw.oneOpen, hw.places, hw.notFull,
      hw.boundary⟩
  have late : (fun e : Entry => e.isOpen && overdue delay e) = overdue delay := by
    funext e
    by_cases h : overdue delay e = true
    · simp [h, isOpen_of_overdue h]
    · simp [h]
  have as := sealWhere_sealedAs orderly (overdue delay)
  rw [late] at as
  have wmb : sealed.wmb = { set.wmb with
      entries := sealedOverdue delay.toNat s.wmb.sealCounter s.wmb.entries
      sealCounter := s.wmb.sealCounter + count } := by
    rw [as.wmb, List.append_nil, sealedOverdue_eq]
    rfl
  refine ⟨?_, ?_, ?_⟩
  · rw [← wmb]
    exact as.blocks
  · rw [wmb]
    simp only [sealedOverdue_eq]
    exact countP_isOpen_sealedBy (fun _ => isOpen_of_overdue) _ _
  · refine ((as.asks hop).start_eq (u := s) rfl rfl).congr fun l => ?_
    simp only [overdue_iff]
    rfl

/-- Settles O56: the entries sealed are those overdue, and the held cycle is counted against the new
threshold after. -/
theorem settingCommandsAct : Obligations.SettingCommandsAct := by
  intro s hop
  refine ⟨congrArg Host.Outcome.next (unlessRefused_serving hop _ _), fun delay threshold => ?_,
    fun enables => ⟨fun h => ?_, fun h => ?_⟩⟩
  · intro set
    have run : exec (.setTiming delay threshold) s = .next (answerSetTiming delay threshold s) :=
      congrArg Host.Outcome.next (unlessRefused_serving hop _ _)
    refine ⟨fun h0 => ?_, fun h0 => ⟨fun young early => ?_, fun hw => ?_⟩⟩
    · rw [run, answerSetTiming, if_pos h0]
    · have none (e : Entry) (he : e ∈ (retimed delay threshold s).wmb.entries) :
          (e.isOpen && overdue delay e) = false := by
        have : ¬ overdue delay e = true := fun h => by
          obtain ⟨age, hage, hle⟩ := (overdue_iff delay e).mp h
          exact absurd hle (Nat.not_le.mpr (young e he age hage))
        simp [this]
      rw [run, answerSetTiming_of_ne h0, sealWhere_of_none none,
        countStall_of_early (s := retimed delay threshold s) early]
      rfl
    · intro late
      have alive : s.power.op ≠ .failed := by rcases hop with h | h <;> simp [h]
      obtain ⟨blocks, opens, asked⟩ := sealOverdue_retimed hw alive delay threshold
      generalize hu : sealWhere (overdue delay) (retimed delay threshold s) = u
        at blocks opens asked
      obtain ⟨host, link, counted⟩ := countStall_shape u
      have uhost : u.host = set.host := by rw [blocks]; rfl
      have ulink : u.link = s.link := by rw [blocks]; rfl
      have held : heldCycle u = heldCycle s := by unfold heldCycle; rw [uhost]
      refine ⟨countStall u, s.wmb.entries.countP (overdue delay), ?_, ?_, ?_, ?_, fun hn => ?_,
        fun h hs => ?_⟩
      · rw [run, answerSetTiming_of_ne h0, hu]
      · rw [counted, blocks]
        rfl
      · rw [counted]
        exact opens
      · exact AsksFor.of_eq asked (by rw [counted]; rfl) (by rw [counted]; rfl)
      · rw [countStall_of_none (held.trans hn)]
        exact ⟨uhost, ulink⟩
      · rw [countStall_of_held (held.trans hs)]
        simp only [uhost, countUp, ulink, set]
        refine ⟨fun ask hp => ?_, fun ask hp => ?_, fun hp => ?_, fun hp => ?_, rfl⟩
        all_goals simp [hp, Port.mapHeld]
  · exact (congrArg Host.Outcome.next (unlessRefused_serving hop _ _)).trans
      (congrArg Host.Outcome.next (if_neg (Nat.not_lt.mpr h)))
  · exact (congrArg Host.Outcome.next (unlessRefused_serving hop _ _)).trans
      (congrArg Host.Outcome.next (if_pos h))

/-! ### Tables with the same contents -/

section Canonical

variable {α : Type}

/-- Tables in order that list the same values are equal. -/
theorem Table.eq_of_find {t u : Table α} (ht : Table.Sorted t) (hu : Table.Sorted u)
    (h : ∀ k, Table.find t k = Table.find u k) : t = u := by
  have order : Std.Irrefl fun a b : Nat × α => a.1 < b.1 := ⟨fun a => Nat.lt_irrefl a.1⟩
  refine List.Pairwise.eq_of_mem_iff (r := fun a b : Nat × α => a.1 < b.1)
    (List.pairwise_map.mp ht) (List.pairwise_map.mp hu) fun c => ?_
  rw [← Table.find_iff_mem ht, ← Table.find_iff_mem hu, h]

variable [DecidableEq α] {d : α}

/-- Equal contents of canonical tables are equal data. -/
theorem Table.eq_of_read {t u : Table α} (ht : Table.Canonical d t) (hu : Table.Canonical d u)
    (h : ∀ k, Table.read d t k = Table.read d u k) : t = u := by
  have listed {t : Table α} (ht : Table.Canonical d t) {k : Nat} {v : α}
      (hf : Table.find t k = some v) : v ≠ d := ht.2 _ ((Table.find_iff_mem ht.1).mp hf)
  refine Table.eq_of_find ht.1 hu.1 fun k => ?_
  have hk := h k
  unfold Table.read at hk
  cases hf : Table.find t k <;> cases hg : Table.find u k <;> simp only [hf, hg, Option.getD] at hk
  · rfl
  · exact absurd hk.symm (listed hu hg)
  · exact absurd hk (listed ht hf)
  · rw [hk]

theorem Table.store_store {t : Table α} (ht : Table.Canonical d t) (k : Nat) (v w : α) :
    Table.store d (Table.store d t k v) k w = Table.store d t k w := by
  have once := Table.store_canonical k v ht
  refine Table.eq_of_read (Table.store_canonical k w once) (Table.store_canonical k w ht) fun j => ?_
  by_cases hj : j = k
  · rw [hj, Table.read_store_same, Table.read_store_same]
  · rw [Table.read_store_other d _ w hj, Table.read_store_other d _ v hj,
      Table.read_store_other d _ w hj]

theorem Table.store_read {t : Table α} (ht : Table.Canonical d t) (k : Nat) :
    Table.store d t k (Table.read d t k) = t := by
  refine Table.eq_of_read (Table.store_canonical k _ ht) ht fun j => ?_
  by_cases hj : j = k
  · rw [hj, Table.read_store_same]
  · rw [Table.read_store_other d _ _ hj]

end Canonical

/-! ### RELEASE SECTOR -/

/-- The sector's record leaves the queue and its field becomes none, whatever it was but IN FLIGHT. -/
theorem dequeueReloc_eq {l : Sector} {s : State} (hm : Table.Canonical MapEntry.unbacked s.map)
    (free : ∀ t pending, (mapEntry s l).reloc ≠ .inFlight t pending) :
    dequeueReloc l s = { s with
      map := Table.store MapEntry.unbacked s.map l.val { mapEntry s l with reloc := .absent }
      reloc := { s.reloc with queue :=
        if (mapEntry s l).reloc = .absent then s.reloc.queue
        else s.reloc.queue.filter fun r => r.sector ≠ l } } := by
  cases hr : (mapEntry s l).reloc with
  | absent =>
    have same : { mapEntry s l with reloc := .absent } = mapEntry s l := by rw [← hr]
    have stored : Table.store MapEntry.unbacked s.map l.val { mapEntry s l with reloc := .absent } =
        s.map := by rw [same]; exact Table.store_read hm l.val
    simp only [dequeueReloc, hr, stored, if_true]
  | queued r =>
    simp only [dequeueReloc, hr, reduceCtorEq, if_false]
    rfl
  | inFlight t pending => exact absurd hr (free t pending)

theorem releaseBusy_iff (s : State) (l : Sector) : releaseBusy s l = true ↔
    (∃ x ∈ s.wmb.entries, x.sector = l ∧ x.isCommitting = true) ∨
      ∃ t pending, (mapEntry s l).reloc = .inFlight t pending := by
  unfold releaseBusy
  rw [Bool.or_eq_true, List.any_eq_true]
  refine or_congr (by simp) ?_
  cases (mapEntry s l).reloc <;> simp

/-- With no entry of the sector COMMITTING, all its entries are discarded. -/
theorem discardStaged_eq {l : Sector} {s : State}
    (free : ∀ x ∈ s.wmb.entries, x.sector = l → x.isCommitting = false) :
    let lost := (s.wmb.entries.filter fun x => x.sector == l).length
    let counted := countUp .linesLost lost { s with
      wmb := { s.wmb with entries := s.wmb.entries.filter fun x => x.sector != l } }
    discardStaged l s = if lost = 0 then counted else record (.releaseDiscard l lost) counted := by
  intro lost counted
  have mine : ∀ e ∈ s.wmb.entries, (e.sector == l && !e.isCommitting) = (e.sector == l) :=
    fun e he => by
      by_cases h : e.sector = l
      · simp [h, free e he h]
      · simp [h]
  have count : s.wmb.entries.countP (fun e => e.sector == l && !e.isCommitting) = lost := by
    rw [List.countP_eq_length_filter, List.filter_congr mine]
  have kept : s.wmb.entries.filter (fun e => !(e.sector == l && !e.isCommitting)) =
      s.wmb.entries.filter fun x => x.sector != l :=
    List.filter_congr fun e he => by rw [mine e he]; rfl
  simp only [discardStaged, discardWhere, freeWhere, setEntries, count, kept]
  rfl

/-- A record and a discard leave the map and the relocation queue alone. -/
theorem told_blocks (told counted : State) (b : RecordBody) (lost : Nat)
    (h : told = if lost = 0 then counted else record b counted) :
    ∃ k, told = counted.setLink k := by
  rw [h]
  split
  · exact ⟨counted.link, rfl⟩
  · exact ⟨_, record_eq b counted⟩

section Accepts

variable {s : State} {l : Sector} (busy : ¬ releaseBusy s l = true)
include busy

theorem acceptRelease_unbacked
    (h : (mapEntry (dequeueReloc l (discardStaged l s)) l).binding = none) :
    acceptRelease l s =
      answerLong (.release l) 0x32 true (dequeueReloc l (discardStaged l s)) := by
  simp only [acceptRelease, if_neg busy]
  split <;> simp_all

theorem acceptRelease_backed {b : Binding}
    (h : (mapEntry (dequeueReloc l (discardStaged l s)) l).binding = some b) :
    acceptRelease l s = settle (startRelease l b
      (answerLong (.release l) 0x32 false (dequeueReloc l (discardStaged l s)))) := by
  simp only [acceptRelease, if_neg busy]
  split <;> simp_all

end Accepts

/-- Settles O58: the checks in their order, and then the discard, the queue and the binding. -/
theorem releaseSectorActsInOrder : Obligations.ReleaseSectorActsInOrder := by
  intro s n hop
  refine ⟨fun busy => congrArg Host.Outcome.next (unlessBusy_busy _ _ hop busy), fun ready => ?_⟩
  have run : exec (.releaseSector n) s = .next (answerRelease n s) :=
    congrArg Host.Outcome.next (unlessBusy_ready _ _ hop ready)
  refine ⟨fun h => ?_, fun l hl => ?_⟩
  · rw [run, answerRelease, dif_neg (Nat.not_lt.mpr h)]
  · intro e busy lost counted told left
    have accepts : answerRelease n s = acceptRelease l s := by
      have hn : n.toNat < 1024 := hl ▸ l.isLt
      rw [answerRelease, dif_pos hn]
      exact congrArg (acceptRelease · s) (Fin.ext hl)
    refine ⟨fun hb => ?_, fun hb canonical => ?_⟩
    · rw [run, accepts, acceptRelease, if_pos ((releaseBusy_iff s l).mpr hb)]
    · have free : ∀ x ∈ s.wmb.entries, x.sector = l → x.isCommitting = false := fun x hx hs =>
        Bool.eq_false_iff.mpr fun hc => hb (.inl ⟨x, hx, hs, hc⟩)
      have discards : discardStaged l s = told := discardStaged_eq free
      obtain ⟨k, hk⟩ := told_blocks told counted (.releaseDiscard l lost) lost rfl
      have map : told.map = s.map := by rw [hk]; rfl
      have reloc : told.reloc = s.reloc := by rw [hk]; rfl
      have entry : mapEntry told l = e := mapEntry_congr map l
      have dequeued := dequeueReloc_eq (l := l) (s := told) (map ▸ canonical.map)
        fun t p h => hb (.inr ⟨t, p, entry ▸ h⟩)
      rw [entry, map, reloc] at dequeued
      generalize hd : dequeueReloc l told = d at dequeued
      have field : mapEntry d l = { e with reloc := .absent } := by
        rw [dequeued]
        exact Table.read_store_same _ _ _ _
      have idle := mt (releaseBusy_iff s l).mp hb
      refine ⟨fun hnone => ?_, fun b hsome => ?_⟩
      · rw [run, accepts, acceptRelease_unbacked idle (by rw [discards, hd, field]; exact hnone),
          discards, hd, dequeued]
        rfl
      · rw [run, accepts, acceptRelease_backed idle (by rw [discards, hd, field]; exact hsome),
          discards, hd, startRelease,
          show mapEntry (answerLong (.release l) 0x32 false d) l =
            { e with reloc := .absent } from field, setMapEntry,
          show (answerLong (.release l) 0x32 false d).map = d.map from rfl]
        have stored : Table.store MapEntry.unbacked d.map l.val
              { { e with reloc := .absent } with releasing := true } =
            Table.store MapEntry.unbacked s.map l.val
              { e with reloc := .absent, releasing := true } := by
          rw [dequeued]
          exact Table.store_store canonical.map _ _ _
        rw [stored, dequeued]
        rfl

end Sys2Proof.Machine
end

section
/-!
PROOFS. What is due on an empty queue, in the model's order (log 5).
-/

namespace Sys2Proof.Machine

open Sys2Proof

/-! ### The first of a list whose time has come -/

section FirstDue

variable {now : Prop} {c : Instr} {l rest : List (Prop × Instr)} {a b : Option Instr}

theorem firstDue_cons {p : Prop} [Decidable p] (h : now ↔ p) (hr : firstDue rest b) :
    firstDue ((now, c) :: rest) (if p then some c else b) :=
  ⟨fun hn => if_pos (h.mp hn), fun hn => by rwa [if_neg (mt h.mpr hn)]⟩

theorem firstDue_skip (h : ¬ now) (hr : firstDue rest b) : firstDue ((now, c) :: rest) b :=
  ⟨fun hn => absurd hn h, fun _ => hr⟩

/-- The first of two lists one behind the other. -/
theorem firstDue_or (ha : firstDue l a) (hb : firstDue rest b) : firstDue (l ++ rest) (a.or b) := by
  induction l with
  | nil =>
    obtain rfl : a = none := ha
    exact hb
  | cons c l ih =>
    obtain ⟨reached, later⟩ := ha
    exact ⟨fun hn => by rw [reached hn]; rfl, fun hn => ih (later hn)⟩

end FirstDue

/-! ### The conditions -/

section Conditions

variable (s : State) (d : DieId)

theorem drained_wmb_iff : drained s.wmb = true ↔
    ∃ b, s.wmb.boundary = some b ∧ ∀ e ∈ s.wmb.entries, b ≤ e.openOrder := by
  cases hb : s.wmb.boundary with
  | none => simp [drained, hb]
  | some b => rw [drained_iff hb]; simp

theorem heldWriteDue_iff : heldWriteDue s = true ↔
    ∃ h data, s.host.port = .writing h ∧ h.cycle.kind = .write data ∧ s.power.op = .running ∧
      (s.power.degraded ≠ none ∨
        presentWrite (lineOf h.cycle.addr) (writeBytes h.cycle data) s ≠ none) := by
  unfold heldWriteDue
  cases hp : s.host.port with
  | writing h => cases hk : h.cycle.kind <;> simp [hk, Option.isSome_iff_ne_none]
  | _ => simp

omit s d in
theorem oldestSealed_isSome_iff (es : List Entry) : (oldestSealed es).isSome = true ↔ es ≠ [] := by
  cases es with
  | nil => simp [oldestSealed]
  | cons e rest =>
    rw [oldestSealed]
    cases oldestSealed rest with
    | none => simp
    | some x => by_cases h : x.sealOrder < e.sealOrder <;> simp [h]

theorem laneChoice_isSome_iff : (laneChoice s d).isSome = true ↔
    ∃ e ∈ s.wmb.entries, isCandidate s d e = true := by
  rw [laneChoice, oldestSealed_isSome_iff, Ne, List.filter_eq_nil_iff]
  push Not
  rfl

theorem laneTakeDue_iff : laneTakeDue s d = true ↔
    s.lanes.get d = .idle ∧ (s.power.op = .running ∨ s.power.op = .powerdown) ∧
      ∃ e ∈ s.wmb.entries, isCandidate s d e = true := by
  simp [laneTakeDue, laneChoice_isSome_iff, and_assoc]

theorem eraseStartDue_iff : eraseStartDue s d = true ↔
    s.power.op = .running ∧ s.erase.slots.get d = .idle ∧ (s.dies.get d).state = .idle ∧
      (s.dies.get d).waiting = [] ∧ (s.dies.get d).reported = true ∧
      (pendingWork s d = false ∨ s.acct.pool.length < 4) ∧
      ∃ r ∈ s.acct.eraseQueue, dieOf r.phys = d := by
  simp only [eraseStartDue, oldestQueued, Bool.and_eq_true, eraseMayStart_iff, beq_iff_eq,
    List.isEmpty_iff, List.find?_isSome]
  tauto

theorem spareFor_isSome_iff (r : RelocReason) : (spareFor r s).isSome = true ↔
    ∃ p rest, s.acct.pool = p :: rest ∧ (r = .failure ∨ rest ≠ []) := by
  rcases hp : s.acct.pool with _ | ⟨p, _ | ⟨q, rest⟩⟩ <;> cases r <;> simp [spareFor, hp]

theorem spareReportDue_iff : spareReportDue s = true ↔
    ∃ j g, s.reloc.engine = .awaitingSpare j ∧ s.reloc.generation = some g ∧
      (s.power.op = .running ∨ (s.power.op = .powerdown ∧ foldedList s ≠ [])) ∧
      (g = 0xFFFFFFFF#32 ∨
        (∃ p rest, s.acct.pool = p :: rest ∧ (j.reason = .failure ∨ rest ≠ [])) ∨
        (s.acct.eraseQueue = [] ∧ ∀ c ∈ s.acct.recs, c.2.membership ≠ .erasing)) := by
  have heard : reportHeard s = true ↔
      s.power.op = .running ∨ (s.power.op = .powerdown ∧ foldedList s ≠ []) := by
    simp [reportHeard]
  unfold spareReportDue
  cases he : s.reloc.engine with
  | awaitingSpare j =>
    cases hg : s.reloc.generation with
    | none => simp
    | some g =>
      simp [heard, spareFor_isSome_iff, noSpareCanCome_iff, lastGeneration, or_assoc]
  | _ => simp

/-- What can become due at a die, with the time of each. -/
def dieTimers : List (Prop × Instr) :=
  let die := s.dies.get d
  [(∃ cause time, die.state = .resetting cause time false ∧ die.offline = false ∧ 1000 ≤ time,
      .dieResetTimeout d),
    (s.power.op ≠ .failed ∧
      ((∃ r time, (die.state = .reading r time ∨ die.state = .programming r time ∨
          ∃ run abandon, die.state = .heldReading run r abandon time) ∧
        (if r.op.isRead then 20 else 1000) ≤ time) ∨
      ∃ run, die.state = .erasing run ∧ die.offline = false ∧ 5000000 ≤ run.erasing),
      .operationTimeout d),
    (s.power.op ≠ .failed ∧ die.offline = false ∧ die.waiting.any Request.isHostRead ∧
      ∃ run, die.state = .erasing run ∧ 400 ≤ run.progress ∧ run.pauses < 48,
      .progressIntervalReached d),
    (s.power.op ≠ .failed ∧ ∃ p run abandon time, die.state = .pausing p run abandon time ∧
      100 ≤ time, .pauseTimeout d)]

omit s d in
/-- The limits and budgets of the timers (R112, R122). -/
theorem timeLimits : resetLimit = 1000 ∧ readLimit = 20 ∧ programLimit = 1000 ∧
    pauseLimit = 100 ∧ eraseLimit = 5000000 ∧ progressInterval = 400 ∧ pauseBudget = 48 :=
  ⟨rfl, rfl, rfl, rfl, rfl, rfl, rfl⟩

theorem firstDue_dieTimers : firstDue (dieTimers s d) (timerDue s d) := by
  unfold dieTimers timerDue
  dsimp only
  cases hst : (s.dies.get d).state with
  | resetting cause time answered =>
    refine firstDue_cons ?_ (firstDue_skip ?_ (firstDue_skip ?_ (firstDue_skip ?_ rfl)))
    · cases answered <;> simp [timeLimits]
    all_goals simp
  | reading r time | programming r time | heldReading run r abandon time =>
    refine firstDue_skip ?_ (firstDue_cons ?_ (firstDue_skip ?_ (firstDue_skip ?_ rfl)))
    case refine_2 => simp [DieOp.limit, timeLimits]
    all_goals simp
  | pausing p run abandon time =>
    refine firstDue_skip ?_ (firstDue_skip ?_ (firstDue_skip ?_ (firstDue_cons ?_ rfl)))
    case refine_4 => simp [timeLimits]
    all_goals simp
  | idle | held run abandon =>
    refine firstDue_skip ?_ (firstDue_skip ?_ (firstDue_skip ?_ (firstDue_skip ?_ rfl))) <;> simp
  | erasing run =>
    refine firstDue_skip ?_ ?_
    · simp
    dsimp only
    by_cases asleep : (s.power.op == .failed || (s.dies.get d).offline) = true
    · rw [if_pos asleep]
      rw [Bool.or_eq_true, beq_iff_eq] at asleep
      refine firstDue_skip ?_ (firstDue_skip ?_ (firstDue_skip ?_ rfl)) <;>
        rcases asleep with h | h <;> simp [h]
    · rw [if_neg asleep]
      rw [Bool.or_eq_true, beq_iff_eq, not_or, Bool.not_eq_true] at asleep
      obtain ⟨alive, online⟩ := asleep
      refine firstDue_cons ?_ (firstDue_cons ?_ (firstDue_skip ?_ rfl))
      · simp [alive, online, timeLimits]
      · simp [alive, online, timeLimits, and_assoc]
      · simp

theorem firstDue_expired : firstDue (s.wmb.entries.map fun e =>
      (∃ age, e.stage = .opened age ∧ s.wmb.commitDelay.toNat ≤ age, .commitDelayExpiry e.line))
    ((expiredLine s).map .commitDelayExpiry) := by
  unfold expiredLine
  induction s.wmb.entries with
  | nil => rfl
  | cons e rest ih =>
    rw [List.map_cons, List.findSome?_cons]
    cases hst : e.stage with
    | opened age =>
      by_cases hle : s.wmb.commitDelay.toNat ≤ age
      · simp [firstDue, hle]
      · simpa [firstDue, hle] using ih
    | _ => simpa [firstDue] using ih

/-- The order of the happenings, the parts one behind the other. -/
theorem due_eq : due s =
    ((((if drained s.wmb = true then some .flushDrain
        else if heldWriteDue s = true then some .heldWritePresented else none).or
      ((expiredLine s).map .commitDelayExpiry)).or (timerDue s .die0)).or (timerDue s .die1)).or
    (if s.power.op = .starting ∧ s.scan.progress.die0 = .done ∧ s.scan.progress.die1 = .done then
        some .scanEnd
      else if spareReportDue s = true then some .spareReport
      else if s.reloc.engine = .idle ∧ s.power.op = .running ∧ s.reloc.queue ≠ [] then
        some .relocationTake
      else if laneTakeDue s .die0 = true then some (.laneTake .die0)
      else if laneTakeDue s .die1 = true then some (.laneTake .die1)
      else if eraseStartDue s .die0 = true then some (.eraseStart .die0)
      else if eraseStartDue s .die1 = true then some (.eraseStart .die1)
      else none) := by
  unfold due
  split
  · rfl
  · split
    · rfl
    · cases expiredLine s with
      | some line => rfl
      | none =>
        cases timerDue s .die0 <;> cases timerDue s .die1 <;> rfl

end Conditions

/-- Settles O1: the parts of the order one behind the other, each with its own condition. -/
theorem stepRunsFront : Obligations.StepRunsFront := by
  refine ⟨fun c rest s h => by simp only [step, h], fun s hempty => ⟨fun c hc => ?_, fun hn => ?_, ?_⟩⟩
  · simp only [step, hempty, idle, hc]
  · simp only [step, hempty, idle, hn]
  · intro die timers take start
    rw [due_eq]
    refine firstDue_or (firstDue_or (firstDue_or (firstDue_or ?_ (firstDue_expired s))
      (firstDue_dieTimers s .die0)) (firstDue_dieTimers s .die1)) ?_
    · exact firstDue_cons (drained_wmb_iff s).symm (firstDue_cons (heldWriteDue_iff s).symm rfl)
    · exact firstDue_cons Iff.rfl (firstDue_cons (spareReportDue_iff s).symm
        (firstDue_cons Iff.rfl (firstDue_cons (laneTakeDue_iff s .die0).symm
          (firstDue_cons (laneTakeDue_iff s .die1).symm
            (firstDue_cons (eraseStartDue_iff s .die0).symm
              (firstDue_cons (eraseStartDue_iff s .die1).symm rfl))))))

end Sys2Proof.Machine
end

section
/-!
PROOFS. The frames of the commands (R167), the cyclic check (R44) and the tag fields (R43, R45).
-/

namespace Sys2Proof.Machine

open Sys2Proof

/-! ### Numbers and their bytes -/

theorem foldl_beBytes (n v a : Nat) :
    (beBytes n v).foldl (fun n b => n * 256 + b.toNat) a = a * 256 ^ n + v % 256 ^ n := by
  induction n generalizing a with
  | zero => simp [beBytes, Nat.mod_one]
  | succ n ih =>
    rw [beBytes, List.foldl_cons, ih, BitVec.toNat_ofNat, Nat.pow_succ (n := 256),
      Nat.mod_mul (x := v) (a := 256 ^ n)]
    ring

/-- The number that the bytes of a number stand for. -/
theorem beNat_beBytes {n v : Nat} (h : v < 256 ^ n) : beNat (beBytes n v) = v := by
  rw [beNat, foldl_beBytes, Nat.zero_mul, Nat.zero_add, Nat.mod_eq_of_lt h]

theorem foldl_beNat (bytes : List Byte) (a : Nat) :
    bytes.foldl (fun n b => n * 256 + b.toNat) a = a * 256 ^ bytes.length + beNat bytes := by
  induction bytes generalizing a with
  | nil => simp [beNat]
  | cons b rest ih =>
    rw [beNat, List.foldl_cons, List.foldl_cons, ih, ih (0 * 256 + b.toNat), List.length_cons]
    ring

theorem beNat_cons (b : Byte) (rest : List Byte) :
    beNat (b :: rest) = b.toNat * 256 ^ rest.length + beNat rest := by
  rw [beNat, List.foldl_cons, foldl_beNat]
  simp

theorem beNat_lt (bytes : List Byte) : beNat bytes < 256 ^ bytes.length := by
  induction bytes with
  | nil => exact Nat.one_pos
  | cons b rest ih =>
    rw [beNat_cons, List.length_cons, Nat.pow_succ']
    have := Nat.mul_le_mul_right (256 ^ rest.length) (Nat.le_of_lt_succ b.isLt)
    omega

/-- Bytes above the `n`th do not count. -/
theorem beBytes_add {n m : Nat} (h : n ≤ m) (v a : Nat) :
    beBytes n (v + a * 256 ^ m) = beBytes n v := by
  induction n with
  | zero => rfl
  | succ n ih =>
    rw [beBytes, beBytes, ih (Nat.le_of_succ_le h)]
    congr 1
    obtain ⟨k, rfl⟩ := Nat.exists_eq_add_of_le h
    have split : v + a * 256 ^ (n + 1 + k) = v + a * 256 ^ k * 256 * 256 ^ n := by ring
    refine BitVec.eq_of_toNat_eq ?_
    rw [BitVec.toNat_ofNat, BitVec.toNat_ofNat, split,
      Nat.add_mul_div_right _ _ (Nat.pow_pos (by decide))]
    exact Nat.add_mul_mod_self_right _ _ _

/-- The bytes of the number that bytes stand for. -/
theorem beBytes_beNat (bytes : List Byte) : beBytes bytes.length (beNat bytes) = bytes := by
  induction bytes with
  | nil => rfl
  | cons b rest ih =>
    rw [beNat_cons, List.length_cons, beBytes, Nat.add_comm, beBytes_add le_rfl, ih,
      Nat.add_mul_div_right _ _ (Nat.pow_pos (by decide)), Nat.div_eq_of_lt (beNat_lt rest),
      Nat.zero_add, BitVec.ofNat_toNat, BitVec.setWidth_eq]

theorem byte_extract {w : Nat} (v : BitVec w) (k : Nat) :
    BitVec.ofNat 8 (v.toNat / 2 ^ k) = v.extractLsb' k 8 := by
  refine BitVec.eq_of_toNat_eq ?_
  rw [BitVec.toNat_ofNat, BitVec.extractLsb'_toNat, Nat.shiftRight_eq_div_pow]

theorem be16_bytes (v : BitVec 16) :
    be16 (BitVec.ofNat 8 (v.toNat / 256)) (BitVec.ofNat 8 v.toNat) = v := by
  have hi : BitVec.ofNat 8 (v.toNat / 256) = v.extractLsb' 8 8 := byte_extract v 8
  have lo : BitVec.ofNat 8 v.toNat = v.extractLsb' 0 8 := by rw [← byte_extract]; simp
  rw [hi, lo, be16, BitVec.extractLsb'_append_extractLsb'_eq_extractLsb' (by decide)]
  exact BitVec.extractLsb'_eq_self

/-! ### Commands -/

/-- The code and the parameters of a command spell it (Command Frames). -/
theorem parseCommand_of_parts {c : Instr} {code : Byte} {params : List Byte}
    (h : commandParts c = some (code, params)) :
    params.length < 256 ∧ parseCommand code params = some c := by
  cases c with
  | status | flush | readRegion | freezeRegion | readCounters | clearCounters | readFault
  | eventEnable =>
    cases h
    exact ⟨by simp, rfl⟩
  | writeRegion i f l m e =>
    rw [commandParts, beBytes_two, beBytes_two] at h
    cases h
    exact ⟨by simp, congrArg₂ (fun a b => some (Instr.writeRegion i a b m e))
      (be16_bytes f) (be16_bytes l)⟩
  | mapQuery n =>
    rw [commandParts, beBytes_two] at h
    cases h
    exact ⟨by simp, congrArg (fun v => some (Instr.mapQuery v)) (be16_bytes n)⟩
  | sectorQuery n =>
    rw [commandParts, beBytes_two] at h
    cases h
    exact ⟨by simp, congrArg (fun v => some (Instr.sectorQuery v)) (be16_bytes n)⟩
  | releaseSector n =>
    rw [commandParts, beBytes_two] at h
    cases h
    exact ⟨by simp, congrArg (fun v => some (Instr.releaseSector v)) (be16_bytes n)⟩
  | setTiming d t =>
    rw [commandParts, beBytes_two, beBytes_two] at h
    cases h
    exact ⟨by simp, congrArg₂ (fun a b => some (Instr.setTiming a b))
      (be16_bytes d) (be16_bytes t)⟩
  | _ => cases h

theorem judgeFrame_encodeFrame {c : Instr} {frame : List Byte} (h : encodeFrame c = some frame) :
    judgeFrame frame = .command c := by
  obtain ⟨⟨code, params⟩, parts, rfl⟩ := Option.map_eq_some_iff.mp h
  obtain ⟨short, spells⟩ := parseCommand_of_parts parts
  rw [judgeFrame_withCheck code short, spells]
  rfl

/-! ### Tag fields -/

/-- The generations that a CLAIM, SEAL or RELEASE may carry (R43). -/
def TagContents.InRange (c : TagContents) : Prop :=
  ∀ g : Gen, (∃ l, c = .claim l g) ∨ c = .sealing g ∨ c = .release g →
    1 ≤ g.toNat ∧ g.toNat ≤ 0xFFFFFFFE

theorem genInRange_iff (g : Gen) :
    genInRange g = true ↔ 1 ≤ g.toNat ∧ g.toNat ≤ 0xFFFFFFFE := by
  simp only [genInRange, lastGeneration, Bool.and_eq_true, bne_iff_ne, ne_eq,
    ← BitVec.toNat_inj]
  have := g.isLt
  simp
  omega

theorem TagContents.InRange.claim {l : Sector} {g : Gen} (h : (TagContents.claim l g).InRange) :
    genInRange g = true := (genInRange_iff g).mpr (h g (.inl ⟨l, rfl⟩))

theorem TagContents.InRange.sealing {g : Gen} (h : (TagContents.sealing g).InRange) :
    genInRange g = true := (genInRange_iff g).mpr (h g (.inr (.inl rfl)))

theorem TagContents.InRange.release {g : Gen} (h : (TagContents.release g).InRange) :
    genInRange g = true := (genInRange_iff g).mpr (h g (.inr (.inr rfl)))

theorem beNat_word {w n : Nat} (v : BitVec w) (h : 2 ^ w = 256 ^ n) :
    BitVec.ofNat w (beNat (beBytes n v.toNat)) = v := by
  rw [beNat_beBytes (h ▸ v.isLt), BitVec.ofNat_toNat, BitVec.setWidth_eq]

theorem beBytes_word {w n : Nat} (h : 2 ^ w = 256 ^ n) {bytes : List Byte} (hl : bytes.length = n) :
    beBytes n (BitVec.ofNat w (beNat bytes)).toNat = bytes := by
  subst hl
  rw [BitVec.toNat_ofNat, h, Nat.mod_eq_of_lt (beNat_lt bytes), beBytes_beNat]

/-- The bytes of contents in range give the contents back. -/
theorem parseField_body {c : TagContents} (h : c.InRange) : parseField c.field c.body = some c := by
  cases c with
  | count n => simp only [TagContents.field, TagContents.body, parseField, beNat_word n (n := 3) rfl]
  | claim l g =>
    have sector : ((beBytes 2 l.val ++ beBytes 4 g.toNat).take 2) = beBytes 2 l.val :=
      List.take_left' (beBytes_length 2 l.val)
    have gen : ((beBytes 2 l.val ++ beBytes 4 g.toNat).drop 2) = beBytes 4 g.toNat :=
      List.drop_left' (beBytes_length 2 l.val)
    have small : l.val < 256 ^ 2 := l.isLt.trans (by decide)
    simp only [TagContents.field, TagContents.body, parseField, sector, gen,
      beNat_word g (n := 4) rfl, h.claim, beNat_beBytes small, if_true, dif_pos l.isLt]
  | sealing g =>
    simp only [TagContents.field, TagContents.body, parseField, beNat_word g (n := 4) rfl, h.sealing,
      if_true]
  | release g =>
    simp only [TagContents.field, TagContents.body, parseField, beNat_word g (n := 4) rfl, h.release,
      if_true]
  | retire r => cases r <;> rfl

theorem retireReasonOf_code {b : Byte} {r : RetireReason} (h : retireReasonOf b = some r) :
    r.code = b := by
  unfold retireReasonOf at h
  split at h
  next hb => cases h; exact hb.symm
  next =>
    split at h
    next hb => cases h; exact hb.symm
    next =>
      split at h
      next hb => cases h; exact hb.symm
      next => cases h

/-- Contents come from their own bytes alone, and lie in range. -/
theorem parseField_eq_some {f : TagField} {body : List Byte} {c : TagContents}
    (hl : body.length + 1 = f.length) (h : parseField f body = some c) :
    c.field = f ∧ c.InRange ∧ c.body = body := by
  cases f with
  | count =>
    obtain rfl := Option.some.inj h
    exact ⟨rfl, by simp [TagContents.InRange], beBytes_word (n := 3) rfl (Nat.succ.inj hl)⟩
  | claim =>
    simp only [parseField] at h
    split at h
    next hs =>
      split at h
      next hg =>
        obtain rfl := Option.some.inj h
        have length : body.length = 6 := Nat.succ.inj hl
        refine ⟨rfl, ?_, ?_⟩
        · rintro g (⟨l, hc⟩ | hc | hc) <;> cases hc
          exact (genInRange_iff _).mp hg
        · have sector := beBytes_beNat (body.take 2)
          rw [List.length_take, length] at sector
          have gen := beBytes_word (w := 32) (n := 4) rfl (bytes := body.drop 2)
            (by rw [List.length_drop, length])
          rw [TagContents.body, gen]
          exact (congrArg (· ++ body.drop 2) sector).trans (List.take_append_drop 2 body)
      next => cases h
    next => cases h
  | sealing =>
    simp only [parseField] at h
    split at h
    next hg =>
      obtain rfl := Option.some.inj h
      refine ⟨rfl, ?_, beBytes_word (n := 4) rfl (Nat.succ.inj hl)⟩
      rintro g (⟨l, hc⟩ | hc | hc) <;> cases hc
      exact (genInRange_iff _).mp hg
    next => cases h
  | release =>
    simp only [parseField] at h
    split at h
    next hg =>
      obtain rfl := Option.some.inj h
      refine ⟨rfl, ?_, beBytes_word (n := 4) rfl (Nat.succ.inj hl)⟩
      rintro g (⟨l, hc⟩ | hc | hc) <;> cases hc
      exact (genInRange_iff _).mp hg
    next => cases h
  | retire =>
    obtain ⟨a, b, rfl⟩ : ∃ a b, body = [a, b] := List.length_eq_two.mp (Nat.succ.inj hl)
    simp only [parseField] at h
    split at h
    next ha =>
      obtain ⟨r, hr, rfl⟩ := Option.map_eq_some_iff.mp h
      obtain rfl := Option.some.inj ha
      exact ⟨rfl, by simp [TagContents.InRange], by
        rw [TagContents.body, retireReasonOf_code hr]; rfl⟩
    next => cases h

/-- The check of bytes that are all hex FF is another byte, in every field. -/
theorem check_of_erased (f : TagField) :
    crc8 (List.replicate (f.length - 1) 0xFF#8) ≠ 0xFF#8 := by
  cases f <;> decide +kernel

theorem TagContents.body_length (c : TagContents) : c.body.length = c.field.length - 1 := by
  cases c <;> simp [TagContents.body, TagContents.field, TagField.length]

theorem all_erased_iff (bytes : List Byte) :
    bytes.all (· == 0xFF#8) = true ↔ ∀ b ∈ bytes, b = 0xFF#8 := by
  simp

/-- Contents in range are read back from their field. -/
theorem judgeField_bytes {c : TagContents} (h : c.InRange) :
    judgeField c.field c.bytes = .valid c := by
  have written : ¬ c.bytes.all (· == 0xFF#8) = true := by
    rw [all_erased_iff]
    intro erased
    have body : c.body = List.replicate (c.field.length - 1) 0xFF#8 :=
      List.eq_replicate_iff.mpr ⟨c.body_length, fun b hb => erased b (List.mem_append_left _ hb)⟩
    refine check_of_erased c.field ?_
    rw [← body]
    exact erased _ (List.mem_append_right _ (List.mem_singleton.mpr rfl))
  rw [judgeField, if_neg written, TagContents.bytes, withCheck_getLast?, withCheck_dropLast,
    if_neg (not_not.mpr rfl), parseField_body h]

/-- Bytes of a field that no contents in range spell are garbled, unless they are blank. -/
theorem judgeField_garbled {f : TagField} {bytes : List Byte} (hl : bytes.length = f.length)
    (written : ¬ bytes.all (· == 0xFF#8) = true)
    (h : ∀ c : TagContents, c.field = f → c.InRange → bytes ≠ c.bytes) :
    judgeField f bytes = .garbled := by
  rw [judgeField, if_neg written]
  split
  · rfl
  next check =>
    have check := not_not.mp check
    have parts : bytes = bytes.dropLast ++ [crc8 bytes.dropLast] :=
      (List.dropLast_append_getLast? _ check).symm
    have length : bytes.dropLast.length + 1 = f.length := by
      rw [← hl]
      conv_rhs => rw [parts, List.length_append]
      rfl
    split
    next c hc =>
      obtain ⟨field, range, body⟩ := parseField_eq_some length hc
      refine absurd ?_ (h c field range)
      rw [TagContents.bytes, withCheck, body]
      exact parts
    next => rfl

theorem TagContents.bytes_eq (n : EraseCount) (l : Sector) (g : Gen) :
    let gen : List Byte :=
      [g.extractLsb' 24 8, g.extractLsb' 16 8, g.extractLsb' 8 8, g.extractLsb' 0 8]
    (TagContents.count n).bytes =
        withCheck [n.extractLsb' 16 8, n.extractLsb' 8 8, n.extractLsb' 0 8] ∧
      (TagContents.claim l g).bytes =
        withCheck ([BitVec.ofNat 8 (l.val / 256), BitVec.ofNat 8 l.val] ++ gen) ∧
      (TagContents.sealing g).bytes = withCheck gen ∧
      (TagContents.release g).bytes = withCheck gen := by
  simp only [TagContents.bytes, TagContents.body, beBytes_two, beBytes_three, beBytes_four,
    ← byte_extract, Nat.pow_zero, Nat.div_one]
  exact ⟨rfl, rfl, rfl, rfl⟩

/-- Settles O14: the codes and the fields read back what is written, and nothing else is valid. -/
theorem frameRoundTrip : Obligations.FrameRoundTrip := by
  refine ⟨fun c frame => judgeFrame_encodeFrame, ⟨rfl, fun bytes b => ?_⟩, fun _ => rfl,
    fun n l g => ?_, fun c => judgeField_bytes, fun f bytes hl => ⟨fun erased => ?_, fun other => ?_⟩,
    fun tag => ?_⟩
  · rw [crc8, List.foldl_append]
    rfl
  · obtain ⟨count, claim, sealing, release⟩ := TagContents.bytes_eq n l g
    exact ⟨count, claim, sealing, release, rfl, rfl, rfl⟩
  · exact if_pos ((all_erased_iff bytes).mpr erased)
  · refine judgeField_garbled hl fun h => ?_
    obtain ⟨b, hb, hne⟩ := other
    exact hne ((all_erased_iff bytes).mp h b hb)
  · exact ⟨⟨rfl, rfl⟩, ⟨rfl, rfl⟩, ⟨rfl, rfl⟩, ⟨rfl, rfl⟩, rfl, rfl⟩

end Sys2Proof.Machine
end

section
/-!
PROOFS. No operation reads or changes the queue of waiting commands: with any queue in its place each
does the same.
-/

namespace Sys2Proof.Machine

open Sys2Proof

/-- The state with another queue of waiting commands. -/
def State.queued (q : List Instr) (s : State) : State := { s with pending := q }

section Queued

variable (q : List Instr) (s : State)

/-! ### The blocks

A field is shown by cases, not by definition, so that `simp` rewrites a condition together with its
decision. -/

@[simp] theorem queued_power : (s.queued q).power = s.power := by cases s; rfl
@[simp] theorem queued_wmb : (s.queued q).wmb = s.wmb := by cases s; rfl
@[simp] theorem queued_map : (s.queued q).map = s.map := by cases s; rfl
@[simp] theorem queued_acct : (s.queued q).acct = s.acct := by cases s; rfl
@[simp] theorem queued_lanes : (s.queued q).lanes = s.lanes := by cases s; rfl
@[simp] theorem queued_reloc : (s.queued q).reloc = s.reloc := by cases s; rfl
@[simp] theorem queued_erase : (s.queued q).erase = s.erase := by cases s; rfl
@[simp] theorem queued_dies : (s.queued q).dies = s.dies := by cases s; rfl
@[simp] theorem queued_host : (s.queued q).host = s.host := by cases s; rfl
@[simp] theorem queued_regions : (s.queued q).regions = s.regions := by cases s; rfl
@[simp] theorem queued_scan : (s.queued q).scan = s.scan := by cases s; rfl
@[simp] theorem queued_release : (s.queued q).release = s.release := by cases s; rfl
@[simp] theorem queued_link : (s.queued q).link = s.link := by cases s; rfl
@[simp] theorem queued_medium : (s.queued q).medium = s.medium := by cases s; rfl
@[simp] theorem queued_now : (s.queued q).now = s.now := by cases s; rfl
@[simp] theorem queued_draws : (s.queued q).draws = s.draws := by cases s; rfl

@[simp] theorem queued_setPower (x : Power) :
    (s.queued q).setPower x = (s.setPower x).queued q := rfl
@[simp] theorem queued_setWmb (x : Wmb) :
    (s.queued q).setWmb x = (s.setWmb x).queued q := rfl
@[simp] theorem queued_setMap (x : Table MapEntry) :
    (s.queued q).setMap x = (s.setMap x).queued q := rfl
@[simp] theorem queued_setAcct (x : Accounting) :
    (s.queued q).setAcct x = (s.setAcct x).queued q := rfl
@[simp] theorem queued_setLanes (x : PerDie Lane) :
    (s.queued q).setLanes x = (s.setLanes x).queued q := rfl
@[simp] theorem queued_setReloc (x : Relocation) :
    (s.queued q).setReloc x = (s.setReloc x).queued q := rfl
@[simp] theorem queued_setErase (x : EraseEngine) :
    (s.queued q).setErase x = (s.setErase x).queued q := rfl
@[simp] theorem queued_setDies (x : PerDie Die) :
    (s.queued q).setDies x = (s.setDies x).queued q := rfl
@[simp] theorem queued_setHost (x : HostPort) :
    (s.queued q).setHost x = (s.setHost x).queued q := rfl
@[simp] theorem queued_setRegions (x : Table Region) :
    (s.queued q).setRegions x = (s.setRegions x).queued q := rfl
@[simp] theorem queued_setScan (x : Scanner) :
    (s.queued q).setScan x = (s.setScan x).queued q := rfl
@[simp] theorem queued_setRelease (x : Option Release) :
    (s.queued q).setRelease x = (s.setRelease x).queued q := rfl
@[simp] theorem queued_setLink (x : Link) :
    (s.queued q).setLink x = (s.setLink x).queued q := rfl
@[simp] theorem queued_setMedium (x : Memory) :
    (s.queued q).setMedium x = (s.setMedium x).queued q := rfl
@[simp] theorem queued_setNow (x : Nat) :
    (s.queued q).setNow x = (s.setNow x).queued q := rfl
@[simp] theorem queued_setDraws (x : Nat) :
    (s.queued q).setDraws x = (s.setDraws x).queued q := rfl

/-! ### The link and the map -/

@[simp] theorem queued_record (b : RecordBody) :
    record b (s.queued q) = (record b s).queued q := by
  rw [record_eq, record_eq]
  rfl

@[simp] theorem queued_countUp (k : CounterName) (n : Nat) :
    countUp k n (s.queued q) = (countUp k n s).queued q := rfl
@[simp] theorem queued_mapEntry : mapEntry (s.queued q) = mapEntry s := by cases s; rfl
@[simp] theorem queued_setMapEntry (l : Sector) (e : MapEntry) :
    setMapEntry l e (s.queued q) = (setMapEntry l e s).queued q := rfl
@[simp] theorem queued_boundPhys : boundPhys (s.queued q) = boundPhys s := by cases s; rfl
@[simp] theorem queued_requestReloc (l : Sector) (reason : RelocReason) :
    requestReloc l reason (s.queued q) = (requestReloc l reason s).queued q := by
  simp [requestReloc]
  split <;> simp

/-! ### The buffer -/

@[simp] theorem queued_setEntries (es : List Entry) :
    setEntries es (s.queued q) = (setEntries es s).queued q := rfl
@[simp] theorem queued_updateEntry (id : Nat) (f : Entry → Entry) :
    updateEntry id f (s.queued q) = (updateEntry id f s).queued q := rfl
@[simp] theorem queued_entryOf : entryOf (s.queued q) = entryOf s := by cases s; rfl
@[simp] theorem queued_sealEntry (id : Nat) :
    sealEntry id (s.queued q) = (sealEntry id s).queued q := by
  simp [sealEntry]
  split <;> (try split) <;> simp

@[simp] theorem queued_sealWhere (p : Entry → Bool) :
    sealWhere p (s.queued q) = (sealWhere p s).queued q := by
  simp only [sealWhere, queued_wmb]
  generalize (s.wmb.entries.filter fun e => e.isOpen && p e).map (·.openOrder) = ids
  induction ids generalizing s with
  | nil => rfl
  | cons id ids ih => rw [List.foldl_cons, queued_sealEntry, ih, List.foldl_cons]

@[simp] theorem queued_sealAll : sealAll (s.queued q) = (sealAll s).queued q := by
  simp [sealAll]

@[simp] theorem queued_sealOldest : sealOldest (s.queued q) = (sealOldest s).queued q := by
  simp [sealOldest]
  split <;> simp

@[simp] theorem queued_openEntry (line : LineNo) (bytes : List (Option Byte)) :
    openEntry line bytes (s.queued q) = (openEntry line bytes s).queued q := by
  have after : afterOpening line bytes (s.queued q) = (afterOpening line bytes s).queued q := by
    have opened (w : Wmb) : { s.queued q with wmb := w } = (s.setWmb w).queued q := rfl
    simp only [afterOpening, queued_wmb, opened, queued_sealEntry]
    split <;> rfl
  rw [openEntry_eq, openEntry_eq, after, queued_wmb, queued_sealOldest]
  split <;> rfl

@[simp] theorem queued_mergeEntry (e : Entry) (bytes : List (Option Byte)) :
    mergeEntry e bytes (s.queued q) = (mergeEntry e bytes s).queued q := by
  unfold mergeEntry
  dsimp only
  split <;> simp

@[simp] theorem queued_presentWrite (line : LineNo) (bytes : List (Option Byte)) :
    presentWrite line bytes (s.queued q) = (presentWrite line bytes s).map (State.queued q) := by
  simp [presentWrite]
  split <;> simp

@[simp] theorem queued_overlayByte : overlayByte (s.queued q) = overlayByte s := by cases s; rfl
@[simp] theorem queued_freeWhere (p : Entry → Bool) :
    freeWhere p (s.queued q) = (freeWhere p s).queued q := rfl
@[simp] theorem queued_discardWhere (p : Entry → Bool) :
    discardWhere p (s.queued q) = ((discardWhere p s).1.queued q, (discardWhere p s).2) := rfl

/-! ### The sets and the regions -/

@[simp] theorem queued_knownCount : knownCount (s.queued q) = knownCount s := by cases s; rfl
@[simp] theorem queued_membershipOf :
    membershipOf (s.queued q) = membershipOf s := by cases s; rfl
@[simp] theorem queued_moveTo (m : Membership) (p : Phys) :
    moveTo m p (s.queued q) = (moveTo m p s).queued q := rfl
@[simp] theorem queued_joinPool (p : Phys) (c : EraseCount) :
    joinPool p c (s.queued q) = (joinPool p c s).queued q := rfl
@[simp] theorem queued_joinEraseQueue (p : Phys) :
    joinEraseQueue p (s.queued q) = (joinEraseQueue p s).queued q := rfl
@[simp] theorem queued_joinRetired (p : Phys) (reason : RetireReason) :
    joinRetired p reason (s.queued q) = (joinRetired p reason s).queued q := rfl
@[simp] theorem queued_noSpareCanCome :
    noSpareCanCome (s.queued q) = noSpareCanCome s := by cases s; rfl
@[simp] theorem queued_regionAt : regionAt (s.queued q) = regionAt s := by cases s; rfl
@[simp] theorem queued_governing : governing (s.queued q) = governing s := by cases s; rfl
@[simp] theorem queued_modeAt : modeAt (s.queued q) = modeAt s := by cases s; rfl

/-! ### The schedulers -/

@[simp] theorem queued_setDie (d : DieId) (x : Die) :
    setDie d x (s.queued q) = (setDie d x s).queued q := rfl
@[simp] theorem queued_setDieState (d : DieId) (x : DieState) :
    setDieState d x (s.queued q) = (setDieState d x s).queued q := rfl
@[simp] theorem queued_issue (requester : Requester) (op : DieOp) :
    issue requester op (s.queued q) = (issue requester op s).queued q := rfl
@[simp] theorem queued_cutInProgress (d : DieId) :
    cutInProgress d (s.queued q) = (cutInProgress d s).queued q := by
  simp [cutInProgress]
  split <;> simp

@[simp] theorem queued_dieReset (d : DieId) (cause : ResetCause) :
    dieReset d cause (s.queued q) = (dieReset d cause s).queued q := by
  simp [dieReset]

@[simp] theorem queued_settleDie (d : DieId) :
    settleDie d (s.queued q) = (settleDie d s).queued q := by
  unfold settleDie
  simp only [queued_power, queued_dies]
  split
  · rfl
  · cases (s.dies.get d).state with
    | idle => cases arbiterChoice (s.dies.get d).waiting <;> simp
    | held run abandon =>
      cases holdChoice (s.dies.get d).waiting <;> cases abandon <;> simp
    | erasing run => dsimp only; split <;> simp
    | _ => rfl

@[simp] theorem queued_settle : settle (s.queued q) = (settle s).queued q := by
  simp [settle]

@[simp] theorem queued_answering : answering (s.queued q) = answering s := by cases s; rfl
@[simp] theorem queued_endOperation (d : DieId) :
    endOperation d (s.queued q) = (endOperation d s).queued q := by
  simp [endOperation]
  split <;> simp

@[simp] theorem queued_endProgram (op : DieOp) (ok : Bool) :
    endProgram op ok (s.queued q) = ((endProgram op ok s).1.queued q, (endProgram op ok s).2) := rfl

/-! ### Time -/

@[simp] theorem queued_heldCycle : heldCycle (s.queued q) = heldCycle s := by cases s; rfl
@[simp] theorem queued_setPort (p : Port) : setPort p (s.queued q) = (setPort p s).queued q := rfl
@[simp] theorem queued_countStall : countStall (s.queued q) = (countStall s).queued q := by
  unfold countStall
  rw [queued_heldCycle]
  cases heldCycle s with
  | none => rfl
  | some h => simp only [queued_host]; split <;> simp

@[simp] theorem queued_advance (dt : Nat) :
    advance dt (s.queued q) = (advance dt s).queued q := rfl
@[simp] theorem queued_elapse (dt : Nat) : elapse dt (s.queued q) = (elapse dt s).queued q := by
  simp [elapse]

@[simp] theorem queued_openAge : openAge (s.queued q) = openAge s := by cases s; rfl

/-! ### The release and the drain -/

@[simp] theorem queued_longDone : longDone (s.queued q) = (longDone s).queued q := by
  simp [longDone]
  split <;> simp

@[simp] theorem queued_flushInProgress :
    flushInProgress (s.queued q) = flushInProgress s := by cases s; rfl
@[simp] theorem queued_reportDrain : reportDrain (s.queued q) = (reportDrain s).queued q := by
  simp [reportDrain]
  split <;> (try split) <;> simp

@[simp] theorem queued_startRelease (l : Sector) (b : Binding) :
    startRelease l b (s.queued q) = (startRelease l b s).queued q := rfl
@[simp] theorem queued_queueStaged (l : Sector) :
    queueStaged l (s.queued q) = (queueStaged l s).queued q := by
  simp [queueStaged]
  split <;> simp

@[simp] theorem queued_releaseEnds (r : Release) :
    releaseEnds r (s.queued q) = (releaseEnds r s).queued q := by
  simp [releaseEnds]

@[simp] theorem queued_releaseMarkEnds (pass : Bool) :
    releaseMarkEnds pass (s.queued q) = (releaseMarkEnds pass s).queued q := by
  unfold releaseMarkEnds
  rw [queued_release]
  cases s.release with
  | none => rfl
  | some r => cases hr : r.retiring <;> cases pass <;> simp [hr]

@[simp] theorem queued_releaseRetireEnds (pass : Bool) :
    releaseRetireEnds pass (s.queued q) = (releaseRetireEnds pass s).queued q := by
  unfold releaseRetireEnds
  rw [queued_release]
  cases s.release with
  | none => rfl
  | some r => cases hr : r.retiring <;> cases pass <;> simp [hr]

@[simp] theorem queued_releaseTimeout (op : DieOp) :
    releaseTimeout op (s.queued q) = (releaseTimeout op s).queued q := by
  simp [releaseTimeout]
  split <;> simp

/-! ### The host port -/

@[simp] theorem queued_commandInProgress :
    commandInProgress (s.queued q) = commandInProgress s := by cases s; rfl
@[simp] theorem queued_completeRead (c : HostCycle) (w : HostWord) :
    completeRead c w (s.queued q) = (completeRead c w s).queued q := rfl
@[simp] theorem queued_refuseWrite (c : HostCycle) :
    refuseWrite c (s.queued q) = (refuseWrite c s).queued q := rfl
@[simp] theorem queued_refuseDegraded (c : HostCycle) :
    refuseDegraded c (s.queued q) = (refuseDegraded c s).queued q := by
  simp [refuseDegraded]

@[simp] theorem queued_refuseHeldWrite :
    refuseHeldWrite (s.queued q) = (refuseHeldWrite s).queued q := by
  simp [refuseHeldWrite]
  split <;> simp

@[simp] theorem queued_takeOrHold (h : HeldCycle) (data : HostWord) :
    takeOrHold h data (s.queued q) = (takeOrHold h data s).queued q := by
  unfold takeOrHold
  rw [queued_presentWrite]
  cases presentWrite (lineOf h.cycle.addr) (writeBytes h.cycle data) s <;> simp

@[simp] theorem queued_writePastRegion (h : HeldCycle) (data : HostWord) :
    writePastRegion h data (s.queued q) = (writePastRegion h data s).queued q := by
  simp [writePastRegion]
  split <;> (try split) <;> simp

@[simp] theorem queued_arriveWrite (h : HeldCycle) (data : HostWord) :
    arriveWrite h data (s.queued q) = (arriveWrite h data s).queued q := by
  simp [arriveWrite]
  split <;> (try split) <;> simp

@[simp] theorem queued_readPastRegion (h : HeldCycle) :
    readPastRegion h (s.queued q) = (readPastRegion h s).queued q := by
  simp [readPastRegion]
  split <;> (try split) <;> simp

@[simp] theorem queued_arriveRead (h : HeldCycle) :
    arriveRead h (s.queued q) = (arriveRead h s).queued q := by
  simp [arriveRead]
  split <;> (try split) <;> simp

@[simp] theorem queued_handleArrival (h : HeldCycle) :
    handleArrival h (s.queued q) = (handleArrival h s).queued q := by
  simp [handleArrival]
  split <;> (try split) <;> simp

@[simp] theorem queued_portReturns (next : Option HeldCycle) :
    portReturns next (s.queued q) = (portReturns next s).queued q := by
  simp [portReturns]
  split <;> simp

@[simp] theorem queued_abandonCycle : abandonCycle (s.queued q) = (abandonCycle s).queued q := by
  simp [abandonCycle]
  split <;> simp

@[simp] theorem queued_endCycle : endCycle (s.queued q) = (endCycle s).queued q := by
  simp [endCycle]
  split <;> simp

@[simp] theorem queued_arrive (c : HostCycle) :
    arrive c (s.queued q) = (arrive c s).queued q := by
  simp [arrive]
  split <;> (try split) <;> simp

@[simp] theorem queued_portReadResult (line : LineData) :
    portReadResult line (s.queued q) = (portReadResult line s).queued q := by
  simp [portReadResult]
  split <;> simp

@[simp] theorem queued_portReadTimeout :
    portReadTimeout (s.queued q) = (portReadTimeout s).queued q := by
  simp [portReadTimeout]
  split <;> simp

@[simp] theorem queued_portEntersFailed :
    portEntersFailed (s.queued q) = (portEntersFailed s).queued q := by
  simp [portEntersFailed]
  split <;> simp

@[simp] theorem queued_presentHeldWrite :
    presentHeldWrite (s.queued q) = (presentHeldWrite s).queued q := by
  simp [presentHeldWrite]
  split <;> (try split) <;> simp

/-! ### The relocation engine -/

@[simp] theorem queued_setEngine (e : Engine) :
    setEngine e (s.queued q) = (setEngine e s).queued q := rfl
@[simp] theorem queued_foldedList : foldedList (s.queued q) = foldedList s := by cases s; rfl
@[simp] theorem queued_setFieldTarget (l : Sector) (t : Option Phys) :
    setFieldTarget l t (s.queued q) = (setFieldTarget l t s).queued q := by
  simp [setFieldTarget]
  split <;> simp

@[simp] theorem queued_requestDegraded (reason : DegradedReason) (lost : Nat) :
    requestDegraded reason lost (s.queued q) = (requestDegraded reason lost s).queued q := by
  simp [requestDegraded]
  split <;> simp

@[simp] theorem queued_abandonDiscards :
    abandonDiscards (s.queued q) = abandonDiscards s := by cases s; rfl
@[simp] theorem queued_abandon (j : Job) (why : Option DegradedReason) :
    abandon j why (s.queued q) = (abandon j why s).queued q := by
  simp only [abandon, queued_discardWhere, queued_record, queued_mapEntry, queued_wmb, queued_reloc,
    queued_setReloc, queued_setMapEntry, ← apply_ite (State.queued q)]
  cases why <;> simp

@[simp] theorem queued_spareFor (r : RelocReason) :
    spareFor r (s.queued q) = spareFor r s := by cases s; rfl
@[simp] theorem queued_claimTarget (j : Job) (t : Phys) (g : Gen) :
    claimTarget j t g (s.queued q) = (claimTarget j t g s).queued q := by
  simp [claimTarget]

@[simp] theorem queued_chooseTarget (j : Job) :
    chooseTarget j (s.queued q) = (chooseTarget j s).queued q := by
  unfold chooseTarget
  simp only [queued_reloc, queued_setEngine, queued_abandon, queued_spareFor, queued_claimTarget,
    queued_noSpareCanCome]
  cases s.reloc.generation with
  | none => rfl
  | some g =>
    dsimp only
    split
    · rfl
    · cases spareFor j.reason s with
      | some t => rfl
      | none => dsimp only; split <;> rfl

@[simp] theorem queued_relocationTakes :
    relocationTakes (s.queued q) = (relocationTakes s).queued q := by
  simp [relocationTakes]
  split <;> simp

@[simp] theorem queued_fold (l : Sector) : fold l (s.queued q) = (fold l s).queued q := rfl
@[simp] theorem queued_layFolded : layFolded (s.queued q) = layFolded s := by cases s; rfl
@[simp] theorem queued_issueSeal (j : Job) (t : Phys) (g : Gen) :
    issueSeal j t g (s.queued q) = (issueSeal j t g s).queued q := rfl
@[simp] theorem queued_issueCopy (j : Job) (t : Phys) (g : Gen) (pos : Pos) (line : LineData) :
    issueCopy j t g pos line (s.queued q) = (issueCopy j t g pos line s).queued q := rfl
@[simp] theorem queued_nextWritten : nextWritten (s.queued q) = nextWritten s := by cases s; rfl
@[simp] theorem queued_copyFrom (j : Job) (t : Phys) (g : Gen) (pos : Nat) :
    copyFrom j t g pos (s.queued q) = (copyFrom j t g pos s).queued q := by
  unfold copyFrom
  split
  · cases j.source with
    | some p => simp
    | none => 
      simp only [queued_nextWritten]
      cases nextWritten s j.sector pos <;> simp
  · simp

@[simp] theorem queued_foldAndCopy (j : Job) (t : Phys) (g : Gen) :
    foldAndCopy j t g (s.queued q) = (foldAndCopy j t g s).queued q := by
  simp [foldAndCopy]

@[simp] theorem queued_targetFails (j : Job) (t : Phys) (g : Gen) (line : Option LineNo)
    (reason : RetireReason) :
    targetFails j t g line reason (s.queued q) = (targetFails j t g line reason s).queued q := by
  simp [targetFails]

@[simp] theorem queued_claimEnds (pass : Bool) :
    claimEnds pass (s.queued q) = (claimEnds pass s).queued q := by
  unfold claimEnds
  rw [queued_reloc]
  cases s.reloc.engine with
  | claiming j t g pending =>
    dsimp only
    split
    · simp only [queued_foldedList, queued_power]
      split
      · simp
      · split <;> simp
    · simp
  | _ => rfl

@[simp] theorem queued_copyLineReturns (medium : LineData) :
    copyLineReturns medium (s.queued q) = (copyLineReturns medium s).queued q := by
  simp [copyLineReturns]
  split <;> (try split) <;> simp

@[simp] theorem queued_copyProgramEnds (pass : Bool) :
    copyProgramEnds pass (s.queued q) = (copyProgramEnds pass s).queued q := by
  simp [copyProgramEnds]
  split <;> (try split) <;> simp

@[simp] theorem queued_sourceLeaves (source : Option Phys) (suspect : Bool) :
    sourceLeaves source suspect (s.queued q) = (sourceLeaves source suspect s).queued q := by
  simp [sourceLeaves]
  split <;> (try split) <;> simp

@[simp] theorem queued_switch (j : Job) (t : Phys) (g : Gen) :
    switch j t g (s.queued q) = (switch j t g s).queued q := by
  simp [switch]
  split <;> simp

@[simp] theorem queued_sealEnds (pass : Bool) :
    sealEnds pass (s.queued q) = (sealEnds pass s).queued q := by
  simp [sealEnds]
  split <;> (try split) <;> simp

@[simp] theorem queued_sourceRetireEnds (pass : Bool) :
    sourceRetireEnds pass (s.queued q) = (sourceRetireEnds pass s).queued q := by
  simp [sourceRetireEnds]
  split <;> (try split) <;> simp

@[simp] theorem queued_targetRetireEnds (pass : Bool) :
    targetRetireEnds pass (s.queued q) = (targetRetireEnds pass s).queued q := by
  unfold targetRetireEnds
  rw [queued_reloc]
  cases s.reloc.engine with
  | retiringTarget j t g reason =>
    have recorded : (if pass then s.queued q else record (.programFail t none) (s.queued q)) =
        (if pass then s else record (.programFail t none) s).queued q := by cases pass <;> simp
    simp only [recorded, queued_joinRetired, queued_setFieldTarget, queued_foldedList, queued_power]
    split
    · simp
    · split <;> simp
  | _ => rfl

@[simp] theorem queued_relocationTimeout (op : DieOp) :
    relocationTimeout op (s.queued q) = (relocationTimeout op s).queued q := by
  simp [relocationTimeout]
  split <;> simp

@[simp] theorem queued_reportHeard : reportHeard (s.queued q) = reportHeard s := by cases s; rfl
@[simp] theorem queued_spareReported :
    spareReported (s.queued q) = (spareReported s).queued q := by
  simp [spareReported]
  split <;> (try split) <;> simp

@[simp] theorem queued_relocationResumes :
    relocationResumes (s.queued q) = (relocationResumes s).queued q := by
  simp [relocationResumes]
  split <;> (try split) <;> simp

@[simp] theorem queued_relocationAnswers :
    relocationAnswers (s.queued q) = relocationAnswers s := by cases s; rfl

/-! ### The management link -/

@[simp] theorem queued_statusBlock : statusBlock (s.queued q) = statusBlock s := by cases s; rfl
@[simp] theorem queued_mapBytes : mapBytes (s.queued q) = mapBytes s := by cases s; rfl
@[simp] theorem queued_physSectorBytes :
    physSectorBytes (s.queued q) = physSectorBytes s := by cases s; rfl
@[simp] theorem queued_respond (code : ResponseCode) (command : Byte) (data : List Byte) :
    respond code command data (s.queued q) = (respond code command data s).queued q := rfl
@[simp] theorem queued_stateRefusal :
    stateRefusal (s.queued q) = stateRefusal s := by cases s; rfl
@[simp] theorem queued_setLastLong (command : LongCommand) (done : Bool) :
    setLastLong command done (s.queued q) = (setLastLong command done s).queued q := rfl
@[simp] theorem queued_answerLong (command : LongCommand) (code : Byte) (done : Bool) :
    answerLong command code done (s.queued q) = (answerLong command code done s).queued q := rfl
@[simp] theorem queued_acceptFlush : acceptFlush (s.queued q) = (acceptFlush s).queued q := by
  simp [acceptFlush]
  split <;> simp

@[simp] theorem queued_dequeueReloc (l : Sector) :
    dequeueReloc l (s.queued q) = (dequeueReloc l s).queued q := by
  simp [dequeueReloc]
  split <;> simp

@[simp] theorem queued_releaseBusy : releaseBusy (s.queued q) = releaseBusy s := by cases s; rfl
@[simp] theorem queued_discardStaged (l : Sector) :
    discardStaged l (s.queued q) = (discardStaged l s).queued q := by
  simp [discardStaged]
  split <;> simp

@[simp] theorem queued_acceptRelease (l : Sector) :
    acceptRelease l (s.queued q) = (acceptRelease l s).queued q := by
  simp [acceptRelease]
  split <;> (try split) <;> simp

@[simp] theorem queued_setRegion (i : Fin 16) (r : Region) :
    setRegion i r (s.queued q) = (setRegion i r s).queued q := rfl
@[simp] theorem queued_answerReadRegion (index : Byte) :
    answerReadRegion index (s.queued q) = (answerReadRegion index s).queued q := by
  simp [answerReadRegion]
  split <;> simp

@[simp] theorem queued_answerWriteRegion (index : Byte) (first last : BitVec 16)
    (mode enabled : Byte) :
    answerWriteRegion index first last mode enabled (s.queued q) =
      (answerWriteRegion index first last mode enabled s).queued q := by
  simp [answerWriteRegion]
  split <;> (try split) <;> simp

@[simp] theorem queued_answerFreezeRegion (index : Byte) :
    answerFreezeRegion index (s.queued q) = (answerFreezeRegion index s).queued q := by
  unfold answerFreezeRegion
  dsimp only
  split <;> simp

@[simp] theorem queued_answerReadFault :
    answerReadFault (s.queued q) = (answerReadFault s).queued q := by
  simp [answerReadFault]
  split <;> simp

@[simp] theorem queued_answerMapQuery (n : BitVec 16) :
    answerMapQuery n (s.queued q) = (answerMapQuery n s).queued q := by
  simp [answerMapQuery]
  split <;> simp

@[simp] theorem queued_answerSectorQuery (n : BitVec 16) :
    answerSectorQuery n (s.queued q) = (answerSectorQuery n s).queued q := by
  simp [answerSectorQuery]
  split <;> simp

@[simp] theorem queued_answerRelease (n : BitVec 16) :
    answerRelease n (s.queued q) = (answerRelease n s).queued q := by
  simp [answerRelease]
  split <;> simp

@[simp] theorem queued_answerSetTiming (delay threshold : BitVec 16) :
    answerSetTiming delay threshold (s.queued q) =
      (answerSetTiming delay threshold s).queued q := by
  unfold answerSetTiming
  dsimp only
  split <;> simp

@[simp] theorem queued_answerEventEnable (enables : Byte) :
    answerEventEnable enables (s.queued q) = (answerEventEnable enables s).queued q := by
  unfold answerEventEnable
  dsimp only
  split <;> simp

/-! ### The commit lanes -/

@[simp] theorem queued_setLane (d : DieId) (l : Lane) :
    setLane d l (s.queued q) = (setLane d l s).queued q := rfl
@[simp] theorem queued_laneChoice : laneChoice (s.queued q) = laneChoice s := by cases s; rfl
@[simp] theorem queued_laneTakes (d : DieId) :
    laneTakes d (s.queued q) = (laneTakes d s).queued q := by
  simp [laneTakes]
  split <;> (try split) <;> simp

@[simp] theorem queued_laneCommitted (d : DieId) (id : Nat) :
    laneCommitted d id (s.queued q) = (laneCommitted d id s).queued q := rfl
@[simp] theorem queued_laneLoses (d : DieId) (e : Entry) (region : Fin 16) :
    laneLoses d e region (s.queued q) = (laneLoses d e region s).queued q := by
  simp [laneLoses]

@[simp] theorem queued_laneHandsOff (d : DieId) (e : Entry) :
    laneHandsOff d e (s.queued q) = (laneHandsOff d e s).queued q := by
  simp [laneHandsOff]

@[simp] theorem queued_laneTests (d : DieId) (medium : LineData) :
    laneTests d medium (s.queued q) = (laneTests d medium s).queued q := by
  unfold laneTests
  simp only [queued_lanes, queued_entryOf, queued_governing, queued_regionAt]
  cases s.lanes.get d with
  | reading id p =>
    dsimp only
    cases entryOf s id with
    | none => rfl
    | some e =>
      dsimp only
      split
      · split <;> simp
      · cases governing s (pageOfLine e.line) with
        | none => simp
        | some i => dsimp only; split <;> simp
  | _ => rfl

@[simp] theorem queued_laneReadTimeout (d : DieId) :
    laneReadTimeout d (s.queued q) = (laneReadTimeout d s).queued q := by
  simp [laneReadTimeout]
  split <;> simp

@[simp] theorem queued_laneProgramFails (d : DieId) :
    laneProgramFails d (s.queued q) = (laneProgramFails d s).queued q := by
  simp [laneProgramFails]
  split <;> (try split) <;> simp

@[simp] theorem queued_laneProgrammed (d : DieId) (pass : Bool) :
    laneProgrammed d pass (s.queued q) = (laneProgrammed d pass s).queued q := by
  simp [laneProgrammed]
  split <;> (try split) <;> simp

/-! ### The erase slots -/

@[simp] theorem queued_setSlot (d : DieId) (x : Slot) :
    setSlot d x (s.queued q) = (setSlot d x s).queued q := rfl
@[simp] theorem queued_pendingWork : pendingWork (s.queued q) = pendingWork s := by cases s; rfl
@[simp] theorem queued_oldestQueued :
    oldestQueued (s.queued q) = oldestQueued s := by cases s; rfl
@[simp] theorem queued_belowLowWater :
    belowLowWater (s.queued q) = belowLowWater s := by cases s; rfl
@[simp] theorem queued_eraseMayStart :
    eraseMayStart (s.queued q) = eraseMayStart s := by cases s; rfl
@[simp] theorem queued_startErase (d : DieId) (r : EraseRecord) :
    startErase d r (s.queued q) = (startErase d r s).queued q := rfl
@[simp] theorem queued_leavePauseList (p : Phys) :
    leavePauseList p (s.queued q) = (leavePauseList p s).queued q := rfl
@[simp] theorem queued_slotRetires (d : DieId) (i : SlotItems) (reason : RetireReason) :
    slotRetires d i reason (s.queued q) = (slotRetires d i reason s).queued q := rfl
@[simp] theorem queued_erasePasses (d : DieId) (i : SlotItems) :
    erasePasses d i (s.queued q) = (erasePasses d i s).queued q := rfl
@[simp] theorem queued_eraseFails (d : DieId) (i : SlotItems) :
    eraseFails d i (s.queued q) = (eraseFails d i s).queued q := by
  simp [eraseFails]

@[simp] theorem queued_clearDegraded :
    clearDegraded (s.queued q) = (clearDegraded s).queued q := by
  simp [clearDegraded]
  split <;> simp

@[simp] theorem queued_countEnds (d : DieId) (pass : Bool) :
    countEnds d pass (s.queued q) = (countEnds d pass s).queued q := by
  simp [countEnds]
  split <;> (try split) <;> simp

@[simp] theorem queued_slotRetireEnds (d : DieId) (pass : Bool) :
    slotRetireEnds d pass (s.queued q) = (slotRetireEnds d pass s).queued q := by
  simp [slotRetireEnds]
  split <;> (try split) <;> simp

@[simp] theorem queued_slotTimeout (d : DieId) (op : DieOp) :
    slotTimeout d op (s.queued q) = (slotTimeout d op s).queued q := by
  simp [slotTimeout]
  split <;> (try split) <;> simp

@[simp] theorem queued_slotRejoins (d : DieId) (i : SlotItems) :
    slotRejoins d i (s.queued q) = (slotRejoins d i s).queued q := rfl
@[simp] theorem queued_abandonReported (d : DieId) :
    abandonReported d (s.queued q) = (abandonReported d s).queued q := by
  simp [abandonReported]
  split <;> simp

@[simp] theorem queued_pauseTimeoutReported (d : DieId) :
    pauseTimeoutReported d (s.queued q) = (pauseTimeoutReported d s).queued q := by
  simp [pauseTimeoutReported]
  split <;> (try split) <;> simp

@[simp] theorem queued_abandonErase (d : DieId) :
    abandonErase d (s.queued q) = (abandonErase d s).queued q := by
  simp [abandonErase]
  split <;> simp

@[simp] theorem queued_slotPowersDown (d : DieId) :
    slotPowersDown d (s.queued q) = (slotPowersDown d s).queued q := by
  simp [slotPowersDown]
  split <;> (try split) <;> simp

@[simp] theorem queued_eraseAwaited :
    eraseAwaited (s.queued q) = eraseAwaited s := by cases s; rfl
@[simp] theorem queued_eraseEnded (d : DieId) :
    eraseEnded d (s.queued q) = (eraseEnded d s).queued q := by
  simp [eraseEnded]
  split <;> simp

/-! ### The scanner -/

@[simp] theorem queued_scanReads (d : DieId) (p : Phys) :
    scanReads d p (s.queued q) = (scanReads d p s).queued q := rfl
@[simp] theorem queued_startScan (d : DieId) :
    startScan d (s.queued q) = (startScan d s).queued q := rfl
@[simp] theorem queued_scanTag (d : DieId) (p : Phys) (tag : List Byte) :
    scanTag d p tag (s.queued q) = (scanTag d p tag s).queued q := by
  simp [scanTag]
  split <;> (try split) <;> simp

@[simp] theorem queued_scanTimeout (p : Phys) :
    scanTimeout p (s.queued q) = (scanTimeout p s).queued q := rfl
@[simp] theorem queued_handleHeldCycle :
    handleHeldCycle (s.queued q) = (handleHeldCycle s).queued q := by
  simp [handleHeldCycle]
  split <;> simp

@[simp] theorem queued_endScan : endScan (s.queued q) = (endScan s).queued q := by
  by_cases h : s.power.pfail = true <;> simp [endScan, h]

/-! ### The time-outs and the answers -/

@[simp] theorem queued_pauseHeld (d : DieId) (run : EraseRun) (abandon : Bool) :
    pauseHeld d run abandon (s.queued q) = (pauseHeld d run abandon s).queued q := rfl
@[simp] theorem queued_pauseAnswered (d : DieId) (heldAnswer : Bool) :
    pauseAnswered d heldAnswer (s.queued q) = (pauseAnswered d heldAnswer s).queued q := by
  simp [pauseAnswered]
  split <;> simp

@[simp] theorem queued_operationTimesOut (d : DieId) :
    operationTimesOut d (s.queued q) = (operationTimesOut d s).queued q := by
  simp [operationTimesOut]
  split <;> simp

@[simp] theorem queued_pauseTimesOut (d : DieId) :
    pauseTimesOut d (s.queued q) = (pauseTimesOut d s).queued q := by
  simp [pauseTimesOut]
  split <;> simp

@[simp] theorem queued_enterFailed : enterFailed (s.queued q) = (enterFailed s).queued q := by
  simp [enterFailed]
  split <;> simp

@[simp] theorem queued_dieResetTimesOut (d : DieId) :
    dieResetTimesOut d (s.queued q) = (dieResetTimesOut d s).queued q := by
  simp [dieResetTimesOut]
  split <;> (try split) <;> simp

@[simp] theorem queued_readyDisregarded (d : DieId) :
    readyDisregarded d (s.queued q) = (readyDisregarded d s).queued q := by
  simp [readyDisregarded]
  split <;> simp

@[simp] theorem queued_readyAwaited :
    readyAwaited (s.queued q) = readyAwaited s := by cases s; rfl
@[simp] theorem queued_scanIfReady (d : DieId) :
    scanIfReady d (s.queued q) = (scanIfReady d s).queued q := by
  simp [scanIfReady]
  split <;> simp

@[simp] theorem queued_deliverTimeout (d : DieId) (who : Requester) (op : DieOp) :
    deliverTimeout d who op (s.queued q) = (deliverTimeout d who op s).queued q := by
  simp [deliverTimeout]
  split <;> (try split) <;> simp

@[simp] theorem queued_readyBrings (d : DieId) (cause : ResetCause) :
    readyBrings d cause (s.queued q) = (readyBrings d cause s).queued q := by
  simp [readyBrings]
  split <;> (try split) <;> simp

@[simp] theorem queued_dieReady (d : DieId) (p : ResetCause → Bool) :
    dieReady d p (s.queued q) = (dieReady d p s).queued q := by
  unfold dieReady
  rw [queued_dies]
  cases (s.dies.get d).state with
  | resetting cause time answered =>
    dsimp only
    simp only [queued_readyAwaited, queued_power]
    split
    · split <;> simp
    · rfl
  | _ => rfl

/-! ### The resets and the power -/

@[simp] theorem queued_cutBoth : cutBoth (s.queued q) = (cutBoth s).queued q := by
  simp [cutBoth]

@[simp] theorem queued_porValues : porValues (s.queued q) = (porValues s).queued q := rfl
@[simp] theorem queued_rstValues : rstValues (s.queued q) = (rstValues s).queued q := rfl
@[simp] theorem queued_releaseRst : releaseRst (s.queued q) = (releaseRst s).queued q := by
  simp [releaseRst]
  split <;> simp

@[simp] theorem queued_enterPowerdown :
    enterPowerdown (s.queued q) = (enterPowerdown s).queued q := by
  simp [enterPowerdown]

@[simp] theorem queued_returnToRunning :
    returnToRunning (s.queued q) = (returnToRunning s).queued q := by
  simp [returnToRunning]


end Queued

end Sys2Proof.Machine
end

section
/-!
PROOFS. No command reads or changes the queue of waiting commands (O2).
-/

namespace Sys2Proof.Machine

open Sys2Proof

/-- An outcome whose next state has another queue of waiting commands. -/
def queuedResult (q : List Instr) :
    Host.Outcome State Fault Refusal → Host.Outcome State Fault Refusal
  | .next t => .next (t.queued q)
  | .fault r => .fault r
  | .refused r => .refused r

@[simp] theorem queuedResult_next (q : List Instr) (t : State) :
    queuedResult q (.next t) = .next (t.queued q) := rfl

section Queued

variable (q : List Instr) (s : State)

/-! ### The commands of the link -/

section Answers

variable {answer : State → State} (h : ∀ u : State, answer (u.queued q) = (answer u).queued q)
  (command : Byte)

include h

theorem queued_unlessRefused : unlessRefused command answer (s.queued q) =
    (unlessRefused command answer s).queued q := by
  simp only [unlessRefused, queued_stateRefusal, h]
  split <;> rfl

theorem queued_unlessStarting : unlessStarting command answer (s.queued q) =
    (unlessStarting command answer s).queued q := by
  simp only [unlessStarting, queued_power, h]
  split <;> rfl

theorem queued_unlessBusy : unlessBusy command answer (s.queued q) =
    (unlessBusy command answer s).queued q := by
  refine queued_unlessRefused q s (fun u => ?_) command
  simp only [queued_commandInProgress, h]
  split <;> rfl

end Answers

@[simp] theorem queued_execStatus :
    execStatus (s.queued q) = queuedResult q (execStatus s) := by
  simp [execStatus]

@[simp] theorem queued_execFlush :
    execFlush (s.queued q) = queuedResult q (execFlush s) :=
  congrArg Host.Outcome.next (queued_unlessBusy q s (fun u => queued_acceptFlush q u) 0x02)

@[simp] theorem queued_execReadRegion (index : Byte) :
    execReadRegion index (s.queued q) = queuedResult q (execReadRegion index s) :=
  congrArg Host.Outcome.next (queued_unlessRefused q s
    (fun u => queued_answerReadRegion q u index) 0x10)

@[simp] theorem queued_execWriteRegion (index : Byte) (first last : BitVec 16)
    (mode enabled : Byte) :
    execWriteRegion index first last mode enabled (s.queued q) =
      queuedResult q (execWriteRegion index first last mode enabled s) :=
  congrArg Host.Outcome.next (queued_unlessRefused q s
    (fun u => queued_answerWriteRegion q u ..) 0x11)

@[simp] theorem queued_execFreezeRegion (index : Byte) :
    execFreezeRegion index (s.queued q) = queuedResult q (execFreezeRegion index s) :=
  congrArg Host.Outcome.next (queued_unlessRefused q s
    (fun u => queued_answerFreezeRegion q u index) 0x12)

@[simp] theorem queued_execReadCounters :
    execReadCounters (s.queued q) = queuedResult q (execReadCounters s) :=
  congrArg Host.Outcome.next (by apply queued_unlessStarting; exact fun _ => rfl)

@[simp] theorem queued_execClearCounters :
    execClearCounters (s.queued q) = queuedResult q (execClearCounters s) :=
  congrArg Host.Outcome.next (by apply queued_unlessRefused; exact fun _ => rfl)

@[simp] theorem queued_execReadFault :
    execReadFault (s.queued q) = queuedResult q (execReadFault s) :=
  congrArg Host.Outcome.next (queued_unlessStarting q s (fun u => queued_answerReadFault q u) 0x22)

@[simp] theorem queued_execMapQuery (sector : BitVec 16) :
    execMapQuery sector (s.queued q) = queuedResult q (execMapQuery sector s) :=
  congrArg Host.Outcome.next (queued_unlessRefused q s
    (fun u => queued_answerMapQuery q u sector) 0x30)

@[simp] theorem queued_execSectorQuery (phys : BitVec 16) :
    execSectorQuery phys (s.queued q) = queuedResult q (execSectorQuery phys s) :=
  congrArg Host.Outcome.next (queued_unlessRefused q s
    (fun u => queued_answerSectorQuery q u phys) 0x31)

@[simp] theorem queued_execReleaseSector (sector : BitVec 16) :
    execReleaseSector sector (s.queued q) = queuedResult q (execReleaseSector sector s) :=
  congrArg Host.Outcome.next (queued_unlessBusy q s (fun u => queued_answerRelease q u sector) 0x32)

@[simp] theorem queued_execSetTiming (delay threshold : BitVec 16) :
    execSetTiming delay threshold (s.queued q) = queuedResult q (execSetTiming delay threshold s) :=
  congrArg Host.Outcome.next (queued_unlessRefused q s
    (fun u => queued_answerSetTiming q u delay threshold) 0x40)

@[simp] theorem queued_execEventEnable (enables : Byte) :
    execEventEnable enables (s.queued q) = queuedResult q (execEventEnable enables s) :=
  congrArg Host.Outcome.next (queued_unlessRefused q s
    (fun u => queued_answerEventEnable q u enables) 0x41)

/-! ### The happenings -/

@[simp] theorem queued_execCommitDelayExpiry (line : LineNo) :
    execCommitDelayExpiry line (s.queued q) = queuedResult q (execCommitDelayExpiry line s) := by
  simp [execCommitDelayExpiry]
  split <;> simp

@[simp] theorem queued_execFlushDrain :
    execFlushDrain (s.queued q) = queuedResult q (execFlushDrain s) := by
  simp [execFlushDrain]

@[simp] theorem queued_execReleaseProgramResult (ok : Bool) :
    execReleaseProgramResult ok (s.queued q) = queuedResult q (execReleaseProgramResult ok s) := by
  simp [execReleaseProgramResult]
  split <;> (try split) <;> simp

@[simp] theorem queued_execReleaseRetireResult (ok : Bool) :
    execReleaseRetireResult ok (s.queued q) = queuedResult q (execReleaseRetireResult ok s) := by
  simp [execReleaseRetireResult]
  split <;> (try split) <;> simp

@[simp] theorem queued_execHostRead (addr : WordAddr) (low high : Bool) :
    execHostRead addr low high (s.queued q) = queuedResult q (execHostRead addr low high s) := by
  simp [execHostRead]

@[simp] theorem queued_execHostWrite (addr : WordAddr) (data : HostWord) (low high : Bool) :
    execHostWrite addr data low high (s.queued q) =
      queuedResult q (execHostWrite addr data low high s) := by
  simp [execHostWrite]

@[simp] theorem queued_execHostCycleAbandoned :
    execHostCycleAbandoned (s.queued q) = queuedResult q (execHostCycleAbandoned s) := by
  simp [execHostCycleAbandoned]

@[simp] theorem queued_execHostCycleEnd :
    execHostCycleEnd (s.queued q) = queuedResult q (execHostCycleEnd s) := by
  simp [execHostCycleEnd]

@[simp] theorem queued_execLongStall :
    execLongStall (s.queued q) = queuedResult q (execLongStall s) := by
  simp [execLongStall]
  split <;> (try split) <;> simp

@[simp] theorem queued_execHeldWritePresented :
    execHeldWritePresented (s.queued q) = queuedResult q (execHeldWritePresented s) := by
  simp [execHeldWritePresented]

@[simp] theorem queued_execHostReadLineResult :
    execHostReadLineResult (s.queued q) = queuedResult q (execHostReadLineResult s) := by
  simp [execHostReadLineResult]
  split <;> (try split) <;> simp

@[simp] theorem queued_execRelocationTake :
    execRelocationTake (s.queued q) = queuedResult q (execRelocationTake s) := by
  simp [execRelocationTake]
  split <;> simp

@[simp] theorem queued_execSpareReport :
    execSpareReport (s.queued q) = queuedResult q (execSpareReport s) := by
  simp [execSpareReport]
  split <;> simp

@[simp] theorem queued_execClaimResult (ok : Bool) :
    execClaimResult ok (s.queued q) = queuedResult q (execClaimResult ok s) := by
  simp [execClaimResult]
  split <;> (try split) <;> simp

@[simp] theorem queued_execCopyReadLineResult :
    execCopyReadLineResult (s.queued q) = queuedResult q (execCopyReadLineResult s) := by
  simp [execCopyReadLineResult]
  split <;> (try split) <;> (try split) <;> simp

@[simp] theorem queued_execCopyProgramLineResult (ok : Bool) :
    execCopyProgramLineResult ok (s.queued q) =
      queuedResult q (execCopyProgramLineResult ok s) := by
  simp [execCopyProgramLineResult]
  split <;> (try split) <;> simp

@[simp] theorem queued_execSealResult (ok : Bool) :
    execSealResult ok (s.queued q) = queuedResult q (execSealResult ok s) := by
  simp [execSealResult]
  split <;> (try split) <;> simp

@[simp] theorem queued_execSourceRetireResult (ok : Bool) :
    execSourceRetireResult ok (s.queued q) = queuedResult q (execSourceRetireResult ok s) := by
  simp [execSourceRetireResult]
  split <;> (try split) <;> simp

@[simp] theorem queued_execTargetRetireResult (ok : Bool) :
    execTargetRetireResult ok (s.queued q) = queuedResult q (execTargetRetireResult ok s) := by
  simp [execTargetRetireResult]
  split <;> (try split) <;> simp

@[simp] theorem queued_execLaneTake (d : DieId) :
    execLaneTake d (s.queued q) = queuedResult q (execLaneTake d s) := by
  simp [execLaneTake]
  split <;> simp

@[simp] theorem queued_execLaneReadLineResult (d : DieId) :
    execLaneReadLineResult d (s.queued q) = queuedResult q (execLaneReadLineResult d s) := by
  simp [execLaneReadLineResult]
  split <;> simp

@[simp] theorem queued_execLaneProgramLineResult (d : DieId) (ok : Bool) :
    execLaneProgramLineResult d ok (s.queued q) =
      queuedResult q (execLaneProgramLineResult d ok s) := by
  simp [execLaneProgramLineResult]
  split <;> simp

@[simp] theorem queued_execEraseStart (d : DieId) :
    execEraseStart d (s.queued q) = queuedResult q (execEraseStart d s) := by
  simp [execEraseStart]
  split <;> (try split) <;> simp

@[simp] theorem queued_execEraseSectorResult (d : DieId) (ok : Bool) :
    execEraseSectorResult d ok (s.queued q) = queuedResult q (execEraseSectorResult d ok s) := by
  simp [execEraseSectorResult]
  split <;> (try split) <;> (try split) <;> simp

@[simp] theorem queued_execCountResult (d : DieId) (ok : Bool) :
    execCountResult d ok (s.queued q) = queuedResult q (execCountResult d ok s) := by
  simp [execCountResult]
  split <;> simp

@[simp] theorem queued_execEraseRetireResult (d : DieId) (ok : Bool) :
    execEraseRetireResult d ok (s.queued q) = queuedResult q (execEraseRetireResult d ok s) := by
  simp [execEraseRetireResult]
  split <;> simp

@[simp] theorem queued_execReadTagResult (d : DieId) :
    execReadTagResult d (s.queued q) = queuedResult q (execReadTagResult d s) := by
  simp [execReadTagResult]
  split <;> simp

@[simp] theorem queued_execScanEnd :
    execScanEnd (s.queued q) = queuedResult q (execScanEnd s) := by
  simp [execScanEnd]
  split <;> simp

@[simp] theorem queued_execPauseAnswer (d : DieId) (held : Bool) :
    execPauseAnswer d held (s.queued q) = queuedResult q (execPauseAnswer d held s) := by
  simp [execPauseAnswer]
  split <;> simp

@[simp] theorem queued_execProgressIntervalReached (d : DieId) :
    execProgressIntervalReached d (s.queued q) =
      queuedResult q (execProgressIntervalReached d s) := by
  simp [execProgressIntervalReached]
  split <;> (try split) <;> simp

@[simp] theorem queued_execOperationTimeout (d : DieId) :
    execOperationTimeout d (s.queued q) = queuedResult q (execOperationTimeout d s) := by
  simp [execOperationTimeout]
  split <;> simp

@[simp] theorem queued_execPauseTimeout (d : DieId) :
    execPauseTimeout d (s.queued q) = queuedResult q (execPauseTimeout d s) := by
  simp [execPauseTimeout]
  split <;> simp

@[simp] theorem queued_execDieResetTimeout (d : DieId) :
    execDieResetTimeout d (s.queued q) = queuedResult q (execDieResetTimeout d s) := by
  simp [execDieResetTimeout]

@[simp] theorem queued_execDieReadyAfterReset (d : DieId) :
    execDieReadyAfterReset d (s.queued q) = queuedResult q (execDieReadyAfterReset d s) := by
  simp [execDieReadyAfterReset]

@[simp] theorem queued_execDieReadyAfterTimeout (d : DieId) :
    execDieReadyAfterTimeout d (s.queued q) = queuedResult q (execDieReadyAfterTimeout d s) := by
  simp [execDieReadyAfterTimeout]

@[simp] theorem queued_execDieReadyAfterPauseTimeout (d : DieId) :
    execDieReadyAfterPauseTimeout d (s.queued q) =
      queuedResult q (execDieReadyAfterPauseTimeout d s) := by
  simp [execDieReadyAfterPauseTimeout]

@[simp] theorem queued_execDieReadyAfterAbandon (d : DieId) :
    execDieReadyAfterAbandon d (s.queued q) = queuedResult q (execDieReadyAfterAbandon d s) := by
  simp [execDieReadyAfterAbandon]

@[simp] theorem queued_execPor :
    execPor (s.queued q) = queuedResult q (execPor s) := by
  simp [execPor]

@[simp] theorem queued_execRstAsserted :
    execRstAsserted (s.queued q) = queuedResult q (execRstAsserted s) := by
  simp [execRstAsserted]

@[simp] theorem queued_execRstReleased :
    execRstReleased (s.queued q) = queuedResult q (execRstReleased s) := by
  simp [execRstReleased]
  split <;> simp

@[simp] theorem queued_execPfailAsserted :
    execPfailAsserted (s.queued q) = queuedResult q (execPfailAsserted s) := by
  simp [execPfailAsserted]
  split <;> simp

@[simp] theorem queued_execPfailReleased :
    execPfailReleased (s.queued q) = queuedResult q (execPfailReleased s) := by
  simp [execPfailReleased]
  split <;> simp

@[simp] theorem queued_execFlushFallingEdge :
    execFlushFallingEdge (s.queued q) = queuedResult q (execFlushFallingEdge s) := by
  simp [execFlushFallingEdge]

/-! ### Every command -/

theorem queued_runFrame (c : Instr) : runFrame c (s.queued q) = queuedResult q (runFrame c s) := by
  cases c <;> simp [runFrame]

@[simp] theorem queued_execBadCommandFrame (bytes : List Byte) :
    execBadCommandFrame bytes (s.queued q) = queuedResult q (execBadCommandFrame bytes s) := by
  unfold execBadCommandFrame
  cases judgeFrame bytes with
  | badCheck => rfl
  | invalid code => rfl
  | command c => exact queued_runFrame q s c

/-- A command does the same with any queue in the place of the queue of waiting commands. -/
theorem exec_queued (c : Instr) : exec c (s.queued q) = queuedResult q (exec c s) := by
  cases c <;> simp [exec]

end Queued

/-- Settles O2: a command does the same with any queue, and so with its own. -/
theorem execLeavesQueue : Obligations.ExecLeavesQueue := by
  intro c s t h
  have any (q : List Instr) : exec c (s.queued q) = .next (t.queued q) := by
    rw [exec_queued, h, queuedResult_next]
  refine ⟨?_, any⟩
  have own : Host.Outcome.next t = .next (t.queued s.pending) := h.symm.trans (any s.pending)
  injection own with own
  rw [own]
  rfl

end Sys2Proof.Machine
end

section
/-!
PROOFS. Sector accounting (R32): a sector that goes from one of the six sets to another keeps the
sets told alike.
-/

namespace Sys2Proof.Machine

open Sys2Proof

/-! ### The six sets -/

/-- Whether a physical sector is in a set, as the lists, the map and the engines tell it. -/
def inSet (s : State) : Membership → Phys → Prop
  | .spare, p => p ∈ s.acct.pool
  | .queuedForErase, p => ∃ n, ⟨p, n⟩ ∈ s.acct.eraseQueue
  | .retired, p => ∃ why, ⟨p, why⟩ ∈ s.acct.retired
  | .mapped, p => ∃ l, boundPhys s l = some p
  | .target, p => s.reloc.engine.target = some p
  | .erasing, p => ∃ d i, (s.erase.slots.get d).items = some i ∧ i.phys = p

/-- The lists stand in their orders and name no sector twice, and no two holders name one sector. -/
structure SetsOrdered (s : State) : Prop where
  wear : s.acct.pool.Pairwise (wornBefore s)
  queueOnce : (s.acct.eraseQueue.map (·.phys)).Nodup
  queueCount : ∀ r ∈ s.acct.eraseQueue, r.count = knownCount s r.phys
  retiredOnce : (s.acct.retired.map (·.phys)).Nodup
  boundOnce : ∀ l l' p, boundPhys s l = some p → boundPhys s l' = some p → l = l'
  slotDie : ∀ d i, (s.erase.slots.get d).items = some i → dieOf i.phys = d

theorem SetsAgree.inSet_iff {s : State} (h : SetsAgree s) (m : Membership) (p : Phys) :
    inSet s m p ↔ membershipOf s p = some m := by
  cases m with
  | spare => exact h.pool p
  | queuedForErase => exact h.queue p
  | retired => exact h.retired p
  | mapped => exact h.mapped p
  | target => exact h.target p
  | erasing => exact h.erasing p

theorem SetsAgree.ordered {s : State} (h : SetsAgree s) : SetsOrdered s :=
  ⟨h.wear, h.queueOnce, h.queueCount, h.retiredOnce, h.boundOnce, h.slotDie⟩

theorem SetsAgree.of_ordered {s : State} (sets : ∀ m p, inSet s m p ↔ membershipOf s p = some m)
    (ordered : SetsOrdered s) : SetsAgree s where
  pool := sets .spare
  wear := ordered.wear
  queue := sets .queuedForErase
  queueOnce := ordered.queueOnce
  queueCount := ordered.queueCount
  retired := sets .retired
  retiredOnce := ordered.retiredOnce
  mapped := sets .mapped
  boundOnce := ordered.boundOnce
  target := sets .target
  erasing := sets .erasing
  slotDie := ordered.slotDie

/-- A sector is in one set alone. -/
theorem SetsAgree.inSet_once {s : State} (h : SetsAgree s) {m m' : Membership} {p : Phys}
    (hm : inSet s m p) (hm' : inSet s m' p) : m = m' :=
  Option.some.inj (((h.inSet_iff m p).mp hm).symm.trans ((h.inSet_iff m' p).mp hm'))

/-- One sector goes to the set `m`: its record tells so, and so does what the lists, the map and the
engines tell. -/
theorem SetsAgree.moved {s t : State} (h : SetsAgree s) {m : Membership} {p : Phys}
    (member : ∀ q, membershipOf t q = if q = p then some m else membershipOf s q)
    (sets : ∀ m' q, inSet t m' q ↔ if q = p then m' = m else inSet s m' q)
    (ordered : SetsOrdered t) : SetsAgree t := by
  refine .of_ordered (fun m' q => ?_) ordered
  rw [sets, member]
  by_cases hq : q = p
  · rw [if_pos hq, if_pos hq, Option.some_inj, eq_comm]
  · rw [if_neg hq, if_neg hq, h.inSet_iff]

/-! ### What the sets depend on -/

theorem SetsAgree.congr {s t : State} (h : SetsAgree s) (acct : t.acct = s.acct)
    (bound : ∀ l, boundPhys t l = boundPhys s l)
    (target : t.reloc.engine.target = s.reloc.engine.target)
    (slots : ∀ d, (t.erase.slots.get d).items = (s.erase.slots.get d).items) : SetsAgree t := by
  have known (p : Phys) : knownCount t p = knownCount s p := by rw [knownCount, acct, knownCount]
  have member (p : Phys) : membershipOf t p = membershipOf s p := by
    rw [membershipOf, acct, membershipOf]
  constructor
  case pool => simpa only [acct, member] using h.pool
  case wear => simpa only [acct, known] using h.wear
  case queue => simpa only [acct, member] using h.queue
  case queueOnce => simpa only [acct] using h.queueOnce
  case queueCount => simpa only [acct, known] using h.queueCount
  case retired => simpa only [acct, member] using h.retired
  case retiredOnce => simpa only [acct] using h.retiredOnce
  case mapped => simpa only [bound, member] using h.mapped
  case boundOnce => simpa only [bound] using h.boundOnce
  case target => simpa only [target, member] using h.target
  case erasing => simpa only [slots, member] using h.erasing
  case slotDie => simpa only [slots] using h.slotDie

theorem knownCount_of_acct {s t : State} (h : t.acct = s.acct) (p : Phys) :
    knownCount t p = knownCount s p := by rw [knownCount, h, knownCount]

/-! ### A record is written -/

section Records

variable (s : State) (m : Membership) (p q : Phys)

theorem membershipOf_withRec (c : EraseCount) :
    membershipOf (s.setAcct (s.acct.withRec p m c)) q =
      if q = p then some m else membershipOf s q := by
  unfold membershipOf Accounting.withRec
  by_cases hq : q = p
  · subst hq
    simp
  · rw [if_neg hq]
    exact congrArg _ (Table.find_put_other _ _ fun e => hq (Fin.ext e))

theorem knownCount_withRec (c : EraseCount) :
    knownCount (s.setAcct (s.acct.withRec p m c)) q = if q = p then c else knownCount s q := by
  unfold knownCount Accounting.withRec
  by_cases hq : q = p
  · subst hq
    simp
  · rw [if_neg hq]
    exact congrArg (fun r : Option PhysRec => (r.map (·.count)).getD 0)
      (Table.find_put_other _ _ fun e => hq (Fin.ext e))

theorem membershipOf_moveTo :
    membershipOf (moveTo m p s) q = if q = p then some m else membershipOf s q :=
  membershipOf_withRec s m p q _

end Records

/-! ### Sectors that go from set to set -/

theorem iff_ite_of_left {p q : Phys} {m m' : Membership} {a b : Prop} (h : a ↔ q ≠ p ∧ b)
    (hm : m' ≠ m) : a ↔ if q = p then m' = m else b := by
  rw [h]
  by_cases hq : q = p <;> simp [hq, hm]

theorem iff_ite_of_joined {p q : Phys} {m : Membership} {a b : Prop} (h : a ↔ q = p ∨ b) :
    a ↔ if q = p then m = m else b := by
  rw [h]
  by_cases hq : q = p <;> simp [hq]

/-- A sector leaves what holds sectors outside the lists: the map, the relocation engine, the
slots. -/
structure LeavesHolders (p : Phys) (s t : State) : Prop where
  bound : ∀ l q, boundPhys t l = some q ↔ q ≠ p ∧ boundPhys s l = some q
  target : ∀ q, t.reloc.engine.target = some q ↔ q ≠ p ∧ s.reloc.engine.target = some q
  items : ∀ d i, (t.erase.slots.get d).items = some i ↔
    i.phys ≠ p ∧ (s.erase.slots.get d).items = some i

/-- A sector that none of the three lists names. -/
structure Unlisted (p : Phys) (s : State) : Prop where
  pool : p ∉ s.acct.pool
  queue : ∀ n, ⟨p, n⟩ ∉ s.acct.eraseQueue
  retired : ∀ why, ⟨p, why⟩ ∉ s.acct.retired

theorem SetsAgree.unlisted {s : State} (h : SetsAgree s) {m : Membership} {p : Phys}
    (hp : inSet s m p) (hm : m = .mapped ∨ m = .target ∨ m = .erasing) : Unlisted p s := by
  refine ⟨fun hl => ?_, fun n hl => ?_, fun why hl => ?_⟩
  · obtain rfl := h.inSet_once hp (m' := .spare) hl
    simp at hm
  · obtain rfl := h.inSet_once hp (m' := .queuedForErase) ⟨n, hl⟩
    simp at hm
  · obtain rfl := h.inSet_once hp (m' := .retired) ⟨why, hl⟩
    simp at hm

section Unlisted

variable {s t : State} {p : Phys} (unlisted : Unlisted p s)

include unlisted

theorem Unlisted.spare (pool : t.acct.pool = s.acct.pool) (q : Phys) :
    inSet t .spare q ↔ q ≠ p ∧ inSet s .spare q := by
  rw [inSet, pool]
  exact ⟨fun hq => ⟨fun e => unlisted.pool (e ▸ hq), hq⟩, And.right⟩

theorem Unlisted.queued (queue : t.acct.eraseQueue = s.acct.eraseQueue) (q : Phys) :
    inSet t .queuedForErase q ↔ q ≠ p ∧ inSet s .queuedForErase q := by
  rw [inSet, queue]
  exact ⟨fun ⟨n, hq⟩ => ⟨fun e => unlisted.queue n (e ▸ hq), n, hq⟩, And.right⟩

theorem Unlisted.inRetired (retired : t.acct.retired = s.acct.retired) (q : Phys) :
    inSet t .retired q ↔ q ≠ p ∧ inSet s .retired q := by
  rw [inSet, retired]
  exact ⟨fun ⟨why, hq⟩ => ⟨fun e => unlisted.retired why (e ▸ hq), why, hq⟩, And.right⟩

end Unlisted

section Joins

variable {s t : State} {p : Phys} (h : SetsAgree s) (gone : LeavesHolders p s t)

include gone

theorem LeavesHolders.mapped (q : Phys) : inSet t .mapped q ↔ q ≠ p ∧ inSet s .mapped q := by
  simp only [inSet, gone.bound, exists_and_left]

theorem LeavesHolders.erasing (q : Phys) : inSet t .erasing q ↔ q ≠ p ∧ inSet s .erasing q := by
  simp only [inSet, gone.items]
  constructor
  · rintro ⟨d, i, ⟨hne, hi⟩, rfl⟩
    exact ⟨hne, d, i, hi, rfl⟩
  · rintro ⟨hne, d, i, hi, rfl⟩
    exact ⟨d, i, ⟨hne, hi⟩, rfl⟩

include h

theorem LeavesHolders.boundOnce (l l' : Sector) (q : Phys) (hl : boundPhys t l = some q)
    (hl' : boundPhys t l' = some q) : l = l' :=
  h.boundOnce l l' q ((gone.bound l q).mp hl).2 ((gone.bound l' q).mp hl').2

theorem LeavesHolders.slotDie (d : DieId) (i : SlotItems)
    (hi : (t.erase.slots.get d).items = some i) : dieOf i.phys = d :=
  h.slotDie d i ((gone.items d i).mp hi).2

/-- A sector goes to the tail of the erase queue (R37). -/
theorem SetsAgree.joinQueue (unlisted : Unlisted p s) (acct : t.acct = (joinEraseQueue p s).acct) :
    SetsAgree t := by
  have known (q : Phys) : knownCount t q = knownCount s q :=
    (knownCount_of_acct acct q).trans (joinEraseQueue_knownCount p q s)
  have pool : t.acct.pool = s.acct.pool := by rw [acct]; rfl
  have queue : t.acct.eraseQueue = s.acct.eraseQueue ++ [⟨p, knownCount s p⟩] :=
    by rw [acct]; rfl
  have retired : t.acct.retired = s.acct.retired := by rw [acct]; rfl
  refine h.moved (m := .queuedForErase) (p := p) (fun q => ?_) (fun m' q => ?_) ?_
  · rw [← membershipOf_moveTo, membershipOf, acct]
    rfl
  · cases m' with
    | spare => exact iff_ite_of_left (unlisted.spare pool q) (by decide)
    | queuedForErase =>
      refine iff_ite_of_joined ?_
      simp only [inSet, queue, List.mem_append, List.mem_singleton, EraseRecord.mk.injEq, exists_or,
        exists_and_left, exists_eq, and_true]
      exact or_comm
    | retired => exact iff_ite_of_left (unlisted.inRetired retired q) (by decide)
    | mapped => exact iff_ite_of_left (gone.mapped q) (by decide)
    | target => exact iff_ite_of_left (gone.target q) (by decide)
    | erasing => exact iff_ite_of_left (gone.erasing q) (by decide)
  · refine ⟨?_, ?_, fun r hr => ?_, ?_, gone.boundOnce h, gone.slotDie h⟩
    · rw [pool]
      exact h.wear.imp fun hw => by simpa only [wornBefore, known] using hw
    · rw [queue, List.map_append, List.nodup_append]
      refine ⟨h.queueOnce, List.nodup_singleton _, fun a ha b hb hab => ?_⟩
      obtain ⟨r, hr, rfl⟩ := List.mem_map.mp ha
      obtain rfl := List.mem_singleton.mp hb
      exact unlisted.queue r.count (by rw [← hab]; exact hr)
    · rw [known]
      rw [queue, List.mem_append, List.mem_singleton] at hr
      rcases hr with hr | rfl
      · exact h.queueCount r hr
      · rfl
    · rw [retired]
      exact h.retiredOnce

/-- A sector goes to the tail of the retired list (R38). -/
theorem SetsAgree.joinRetired (unlisted : Unlisted p s) {why : RetireReason}
    (acct : t.acct = (joinRetired p why s).acct) : SetsAgree t := by
  have known (q : Phys) : knownCount t q = knownCount s q :=
    (knownCount_of_acct acct q).trans (knownCount_moveTo .retired p q s)
  have pool : t.acct.pool = s.acct.pool := by rw [acct]; rfl
  have queue : t.acct.eraseQueue = s.acct.eraseQueue := by rw [acct]; rfl
  have retired : t.acct.retired = s.acct.retired ++ [⟨p, why⟩] := by rw [acct]; rfl
  refine h.moved (m := .retired) (p := p) (fun q => ?_) (fun m' q => ?_) ?_
  · rw [← membershipOf_moveTo, membershipOf, acct]
    rfl
  · cases m' with
    | spare => exact iff_ite_of_left (unlisted.spare pool q) (by decide)
    | queuedForErase => exact iff_ite_of_left (unlisted.queued queue q) (by decide)
    | retired =>
      refine iff_ite_of_joined ?_
      simp only [inSet, retired, List.mem_append, List.mem_singleton, RetiredRecord.mk.injEq,
        exists_or, exists_and_left, exists_eq, and_true]
      exact or_comm
    | mapped => exact iff_ite_of_left (gone.mapped q) (by decide)
    | target => exact iff_ite_of_left (gone.target q) (by decide)
    | erasing => exact iff_ite_of_left (gone.erasing q) (by decide)
  · refine ⟨?_, ?_, fun r hr => ?_, ?_, gone.boundOnce h, gone.slotDie h⟩
    · rw [pool]
      exact h.wear.imp fun hw => by simpa only [wornBefore, known] using hw
    · rw [queue]
      exact h.queueOnce
    · rw [known]
      exact h.queueCount r (queue ▸ hr)
    · rw [retired, List.map_append, List.nodup_append]
      refine ⟨h.retiredOnce, List.nodup_singleton _, fun a ha b hb hab => ?_⟩
      obtain ⟨r, hr, rfl⟩ := List.mem_map.mp ha
      obtain rfl := List.mem_singleton.mp hb
      exact unlisted.retired r.reason (by rw [← hab]; exact hr)

/-- A sector goes to the spare pool with a new known count (R34). -/
theorem SetsAgree.joinPool (unlisted : Unlisted p s) {n : EraseCount}
    (acct : t.acct = (joinPool p n s).acct) : SetsAgree t := by
  have counted (q : Phys) : knownCount t q = if q = p then n else knownCount s q := by
    rw [← knownCount_withRec s .spare, knownCount, acct, knownCount]
    rfl
  have known {q : Phys} (hq : q ≠ p) : knownCount t q = knownCount s q := by
    rw [counted, if_neg hq]
  have pool : t.acct.pool = insertByWear (wearBefore t p) p s.acct.pool := by
    have order : wearBefore t p = wearBefore (s.setAcct (s.acct.withRec p .spare n)) p := by
      funext q
      simp only [wearBefore, counted, knownCount_withRec]
    rw [order]
    exact congrArg Accounting.pool acct
  have queue : t.acct.eraseQueue = s.acct.eraseQueue := by rw [acct]; rfl
  have retired : t.acct.retired = s.acct.retired := by rw [acct]; rfl
  refine h.moved (m := .spare) (p := p) (fun q => ?_) (fun m' q => ?_) ?_
  · rw [← membershipOf_withRec s .spare p q n, membershipOf, acct]
    rfl
  · cases m' with
    | spare =>
      refine iff_ite_of_joined ?_
      rw [inSet, pool, mem_insertByWear]
      rfl
    | queuedForErase => exact iff_ite_of_left (unlisted.queued queue q) (by decide)
    | retired => exact iff_ite_of_left (unlisted.inRetired retired q) (by decide)
    | mapped => exact iff_ite_of_left (gone.mapped q) (by decide)
    | target => exact iff_ite_of_left (gone.target q) (by decide)
    | erasing => exact iff_ite_of_left (gone.erasing q) (by decide)
  · refine ⟨?_, ?_, fun r hr => ?_, ?_, gone.boundOnce h, gone.slotDie h⟩
    · rw [pool]
      refine insertByWear_ordered unlisted.pool (h.wear.imp_of_mem fun {a b} ha hb hw => ?_)
      have ha : a ≠ p := fun e => unlisted.pool (e ▸ ha)
      have hb : b ≠ p := fun e => unlisted.pool (e ▸ hb)
      simpa only [wornBefore, known ha, known hb] using hw
    · rw [queue]
      exact h.queueOnce
    · have hr : r ∈ s.acct.eraseQueue := queue ▸ hr
      rw [known fun e => unlisted.queue r.count (e ▸ hr)]
      exact h.queueCount r hr
    · rw [retired]
      exact h.retiredOnce

end Joins

/-- A set that the sector is not in and that stays as it is. -/
theorem SetsAgree.kept {s t : State} (h : SetsAgree s) {m m' : Membership} {p : Phys}
    (hp : inSet s m p) (hm : m' ≠ m) {q : Phys} (same : inSet t m' q ↔ inSet s m' q) :
    inSet t m' q ↔ q ≠ p ∧ inSet s m' q := by
  rw [same]
  exact ⟨fun hq => ⟨fun e => hm (h.inSet_once (e ▸ hq) hp), hq⟩, And.right⟩

/-- A spare becomes the engine's target (R35). -/
theorem SetsAgree.claim {s t : State} (h : SetsAgree s) (free : s.reloc.engine.target = none)
    {p : Phys} (hp : p ∈ s.acct.pool)
    (acct : t.acct =
      (moveTo .target p (s.setAcct { s.acct with pool := s.acct.pool.erase p })).acct)
    (bound : ∀ l, boundPhys t l = boundPhys s l) (target : t.reloc.engine.target = some p)
    (slots : t.erase.slots = s.erase.slots) : SetsAgree t := by
  have known (q : Phys) : knownCount t q = knownCount s q :=
    (knownCount_of_acct acct q).trans (knownCount_moveTo .target p q _)
  have pool : t.acct.pool = s.acct.pool.erase p := by rw [acct]; rfl
  have queue : t.acct.eraseQueue = s.acct.eraseQueue := by rw [acct]; rfl
  have retired : t.acct.retired = s.acct.retired := by rw [acct]; rfl
  have nodup : s.acct.pool.Nodup := h.wear.imp fun {a b} hw e => by
    subst e
    rcases hw with hw | ⟨-, hw⟩
    · exact absurd hw (BitVec.lt_irrefl _)
    · exact absurd hw (lt_irrefl _)
  have hset : inSet s .spare p := hp
  refine h.moved (m := .target) (p := p) (fun q => ?_) (fun m' q => ?_) ?_
  · rw [show membershipOf s q = membershipOf
        (s.setAcct { s.acct with pool := s.acct.pool.erase p }) q from rfl,
      ← membershipOf_moveTo, membershipOf, acct]
    rfl
  · cases m' with
    | spare =>
      refine iff_ite_of_left ?_ (by decide)
      rw [inSet, pool, nodup.mem_erase_iff]
      rfl
    | queuedForErase =>
      exact iff_ite_of_left (h.kept hset (by decide) (by simp only [inSet, queue])) (by decide)
    | retired =>
      exact iff_ite_of_left (h.kept hset (by decide) (by simp only [inSet, retired])) (by decide)
    | mapped =>
      exact iff_ite_of_left (h.kept hset (by decide) (by simp only [inSet, bound])) (by decide)
    | target =>
      refine iff_ite_of_joined ?_
      simp only [inSet, target, free, Option.some.injEq, reduceCtorEq, or_false]
      exact eq_comm
    | erasing =>
      exact iff_ite_of_left (h.kept hset (by decide) (by simp only [inSet, slots])) (by decide)
  · constructor
    case wear =>
      rw [pool]
      exact (h.wear.sublist List.erase_sublist).imp fun hw => by
        simpa only [wornBefore, known] using hw
    case queueOnce => exact queue ▸ h.queueOnce
    case queueCount => exact fun r hr => by rw [known]; exact h.queueCount r (queue ▸ hr)
    case retiredOnce => exact retired ▸ h.retiredOnce
    case boundOnce => simpa only [bound] using h.boundOnce
    case slotDie => rw [slots]; exact h.slotDie

/-- The engine's target is bound to a sector that had no binding (R87). -/
theorem SetsAgree.bind {s t : State} (h : SetsAgree s) {p : Phys} {l : Sector}
    (target : s.reloc.engine.target = some p) (unbound : boundPhys s l = none)
    (member : ∀ q, membershipOf t q = if q = p then some .mapped else membershipOf s q)
    (known : ∀ q, knownCount t q = knownCount s q)
    (lists : t.acct.pool = s.acct.pool ∧ t.acct.eraseQueue = s.acct.eraseQueue ∧
      t.acct.retired = s.acct.retired)
    (bound : ∀ x, boundPhys t x = if x = l then some p else boundPhys s x)
    (released : t.reloc.engine.target = none) (slots : t.erase.slots = s.erase.slots) :
    SetsAgree t := by
  obtain ⟨pool, queue, retired⟩ := lists
  have hset : inSet s .target p := target
  have unlisted := h.unlisted hset (.inr (.inl rfl))
  have isMapped (q : Phys) : inSet t .mapped q ↔ q = p ∨ inSet s .mapped q := by
    simp only [inSet, bound]
    constructor
    · rintro ⟨x, hx⟩
      split at hx
      · exact .inl (Option.some.inj hx).symm
      · exact .inr ⟨x, hx⟩
    · rintro (rfl | ⟨x, hx⟩)
      · exact ⟨l, if_pos rfl⟩
      · refine ⟨x, ?_⟩
        rw [if_neg]
        · exact hx
        · rintro rfl
          rw [unbound] at hx
          cases hx
  refine h.moved (m := .mapped) (p := p) member (fun m' q => ?_) ?_
  · cases m' with
    | spare => exact iff_ite_of_left (unlisted.spare pool q) (by decide)
    | queuedForErase => exact iff_ite_of_left (unlisted.queued queue q) (by decide)
    | retired => exact iff_ite_of_left (unlisted.inRetired retired q) (by decide)
    | mapped => exact iff_ite_of_joined (isMapped q)
    | target =>
      refine iff_ite_of_left ?_ (by decide)
      simp [inSet, released, target, eq_comm]
    | erasing =>
      exact iff_ite_of_left (h.kept hset (by decide) (by simp only [inSet, slots])) (by decide)
  · constructor
    case wear =>
      rw [pool]
      exact h.wear.imp fun hw => by simpa only [wornBefore, known] using hw
    case queueOnce => exact queue ▸ h.queueOnce
    case queueCount => exact fun r hr => by rw [known]; exact h.queueCount r (queue ▸ hr)
    case retiredOnce => exact retired ▸ h.retiredOnce
    case boundOnce =>
      have other {x : Sector} {q : Phys} (hx : boundPhys s x = some q) : q ≠ p := fun e => by
        have := h.inSet_once (m := .mapped) (m' := .target) ⟨x, e ▸ hx⟩ target
        cases this
      intro x x' q hx hx'
      rw [bound] at hx hx'
      split at hx <;> split at hx'
      · next hl hl' => rw [hl, hl']
      · exact absurd (Option.some.inj hx).symm (other hx')
      · exact absurd (Option.some.inj hx').symm (other hx)
      · exact h.boundOnce x x' q hx hx'
    case slotDie => rw [slots]; exact h.slotDie

/-- A queued sector goes to the IDLE slot of its die (R101). -/
theorem SetsAgree.startErase {s t : State} (h : SetsAgree s) {r : EraseRecord} {d : DieId}
    (hr : r ∈ s.acct.eraseQueue) (hd : dieOf r.phys = d)
    (idle : (s.erase.slots.get d).items = none)
    (acct : t.acct = (moveTo .erasing r.phys (s.setAcct { s.acct with
      eraseQueue := s.acct.eraseQueue.filter fun x => x.phys ≠ r.phys })).acct)
    (bound : ∀ l, boundPhys t l = boundPhys s l)
    (target : t.reloc.engine.target = s.reloc.engine.target)
    (taken : ∃ i : SlotItems, i.phys = r.phys ∧ (t.erase.slots.get d).items = some i)
    (others : ∀ e, e ≠ d → t.erase.slots.get e = s.erase.slots.get e) : SetsAgree t := by
  have known (q : Phys) : knownCount t q = knownCount s q :=
    (knownCount_of_acct acct q).trans (knownCount_moveTo .erasing r.phys q _)
  have pool : t.acct.pool = s.acct.pool := by rw [acct]; rfl
  have queue : t.acct.eraseQueue = s.acct.eraseQueue.filter fun x => x.phys ≠ r.phys := by
    rw [acct]; rfl
  have retired : t.acct.retired = s.acct.retired := by rw [acct]; rfl
  have hset : inSet s .queuedForErase r.phys := ⟨r.count, hr⟩
  obtain ⟨i, hi, items⟩ := taken
  have isErasing (q : Phys) : inSet t .erasing q ↔ q = r.phys ∨ inSet s .erasing q := by
    constructor
    · rintro ⟨e, x, hx, rfl⟩
      by_cases he : e = d
      · subst he
        rw [items] at hx
        obtain rfl := Option.some.inj hx
        exact .inl hi
      · exact .inr ⟨e, x, others e he ▸ hx, rfl⟩
    · rintro (rfl | ⟨e, x, hx, rfl⟩)
      · exact ⟨d, i, items, hi⟩
      · refine ⟨e, x, ?_, rfl⟩
        rwa [others e]
        rintro rfl
        rw [idle] at hx
        cases hx
  refine h.moved (m := .erasing) (p := r.phys) (fun q => ?_) (fun m' q => ?_) ?_
  · rw [show membershipOf s q = membershipOf (s.setAcct { s.acct with
        eraseQueue := s.acct.eraseQueue.filter fun x => x.phys ≠ r.phys }) q from rfl,
      ← membershipOf_moveTo, membershipOf, acct]
    rfl
  · cases m' with
    | spare =>
      exact iff_ite_of_left (h.kept hset (by decide) (by simp only [inSet, pool])) (by decide)
    | queuedForErase =>
      refine iff_ite_of_left ?_ (by decide)
      simp only [inSet, queue, List.mem_filter, decide_eq_true_eq]
      exact ⟨fun ⟨n, hn, hne⟩ => ⟨hne, n, hn⟩, fun ⟨hne, n, hn⟩ => ⟨n, hn, hne⟩⟩
    | retired =>
      exact iff_ite_of_left (h.kept hset (by decide) (by simp only [inSet, retired])) (by decide)
    | mapped =>
      exact iff_ite_of_left (h.kept hset (by decide) (by simp only [inSet, bound])) (by decide)
    | target =>
      exact iff_ite_of_left (h.kept hset (by decide) (by simp only [inSet, target])) (by decide)
    | erasing => exact iff_ite_of_joined (isErasing q)
  · constructor
    case wear =>
      rw [pool]
      exact h.wear.imp fun hw => by simpa only [wornBefore, known] using hw
    case queueOnce =>
      rw [queue]
      exact h.queueOnce.sublist (List.filter_sublist.map _)
    case queueCount =>
      intro x hx
      rw [known]
      rw [queue] at hx
      exact h.queueCount x (List.mem_filter.mp hx).1
    case retiredOnce => exact retired ▸ h.retiredOnce
    case boundOnce => simpa only [bound] using h.boundOnce
    case slotDie =>
      intro e x hx
      by_cases he : e = d
      · subst he
        rw [items] at hx
        obtain rfl := Option.some.inj hx
        rw [hi]
        exact hd
      · exact h.slotDie e x (others e he ▸ hx)

end Sys2Proof.Machine
end

section
/-!
PROOFS. Sector accounting through the writes that all commands share: those that tell nothing of a
sector, the schedulers, the buffer and the relocation requests.
-/

namespace Sys2Proof.Machine

open Sys2Proof

/-! ### The scanner's operations at a die -/

/-- The scanner's operation that a die has in progress, or whose time-out it is being reset for. -/
def DieState.scannerOps : DieState → List DieOp
  | .reading r _ | .programming r _ | .heldReading _ r _ _ =>
    if r.requester = .scanner then [r.op] else []
  | .resetting (.timeout .scanner op _) _ _ => [op]
  | _ => []

/-- The scanner's requests among those that wait. -/
def scannerWaits (ws : List Request) : List DieOp :=
  (ws.filter fun r => r.requester == .scanner).map (·.op)

theorem scannerOps_eq (die : Die) :
    scannerOps die = scannerWaits die.waiting ++ die.state.scannerOps := by
  unfold scannerOps scannerWaits
  rw [List.filter_append, List.map_append, List.append_assoc]
  congr 1
  cases hst : die.state with
  | resetting cause time answered =>
    cases cause with
    | timeout who op held => cases who <;> simp [Die.inProgress, hst, DieState.scannerOps]
    | _ => simp [Die.inProgress, hst, DieState.scannerOps]
  | reading r time | programming r time | heldReading run r abandon time =>
    by_cases hr : r.requester = .scanner <;> simp [Die.inProgress, hst, DieState.scannerOps, hr]
  | _ => simp [Die.inProgress, hst, DieState.scannerOps]

theorem scannerOps_of_same {a b : Die} (waiting : a.waiting = b.waiting)
    (state : a.state.scannerOps = b.state.scannerOps) : scannerOps a = scannerOps b := by
  rw [scannerOps_eq, scannerOps_eq, waiting, state]

theorem scannerOps_subperm {a b : Die} (waiting : a.waiting = b.waiting)
    (state : a.state.scannerOps = [] ∨ a.state.scannerOps = b.state.scannerOps) :
    List.Subperm (scannerOps a) (scannerOps b) := by
  rw [scannerOps_eq, scannerOps_eq, waiting]
  rcases state with h | h
  · rw [h, List.append_nil]
    exact (List.sublist_append_left _ _).subperm
  · rw [h]

/-- A die that takes a request has no other operation of the scanner than before. -/
theorem scannerOps_taken {die : Die} {r : Request} (hr : r ∈ die.waiting) {st : DieState}
    (state : st.scannerOps = [] ∨ r.requester = .scanner ∧ st.scannerOps = [r.op])
    (reported : Bool) :
    List.Subperm
      (scannerOps { die with state := st, waiting := die.waiting.erase r, reported := reported })
      (scannerOps die) := by
  have order : List.Perm (scannerWaits die.waiting) (scannerWaits (r :: die.waiting.erase r)) :=
    ((List.perm_cons_erase hr).filter _).map _
  rw [scannerOps_eq, scannerOps_eq]
  refine .trans ?_ (List.sublist_append_left _ _).subperm
  refine .trans ?_ order.symm.subperm
  rcases state with h | ⟨hwho, h⟩
  · rw [h, List.append_nil]
    exact ((List.sublist_cons_self r _).filter _ |>.map _).subperm
  · rw [h]
    have head : scannerWaits (r :: die.waiting.erase r) =
        r.op :: scannerWaits (die.waiting.erase r) := by simp [scannerWaits, hwho]
    rw [head]
    exact (List.perm_append_singleton _ _).subperm

/-- Of one operation or none, no more than one is left. -/
theorem eq_nil_or_singleton {α : Type} {l l' : List α} (h : List.Subperm l l') {x : α}
    (hl : l' = [x]) : l = [] ∨ l = [x] := by
  subst hl
  match l, h.length_le, h.subset with
  | [], _, _ => exact .inl rfl
  | [y], _, hs => exact .inr (by rw [List.mem_singleton.mp (hs List.mem_cons_self)])

/-! ### Writes that tell nothing of a sector -/

section Plain

variable {s : State} (h : SectorsAccounted s)

include h

theorem SectorsAccounted.setPower (x : Power) : SectorsAccounted (s.setPower x) :=
  ⟨{ h.1 with }, { h.2.1 with }, { h.2.2 with }⟩

theorem SectorsAccounted.setHost (x : HostPort) : SectorsAccounted (s.setHost x) :=
  ⟨{ h.1 with }, { h.2.1 with }, { h.2.2 with }⟩

theorem SectorsAccounted.setRegions (x : Table Region) : SectorsAccounted (s.setRegions x) :=
  ⟨{ h.1 with }, { h.2.1 with }, { h.2.2 with }⟩

theorem SectorsAccounted.setLink (x : Link) : SectorsAccounted (s.setLink x) :=
  ⟨{ h.1 with }, { h.2.1 with }, { h.2.2 with }⟩

theorem SectorsAccounted.setMedium (x : Memory) : SectorsAccounted (s.setMedium x) :=
  ⟨{ h.1 with }, { h.2.1 with }, { h.2.2 with }⟩

theorem SectorsAccounted.setDraws (x : Nat) : SectorsAccounted (s.setDraws x) :=
  ⟨{ h.1 with }, { h.2.1 with }, { h.2.2 with }⟩

theorem SectorsAccounted.setNow (x : Nat) : SectorsAccounted (s.setNow x) :=
  ⟨{ h.1 with }, { h.2.1 with }, { h.2.2 with }⟩

theorem SectorsAccounted.record (b : RecordBody) : SectorsAccounted (record b s) := by
  rw [record_eq]
  exact h.setLink _

theorem SectorsAccounted.countUp (k : CounterName) (n : Nat) : SectorsAccounted (countUp k n s) :=
  h.setLink _

theorem SectorsAccounted.setPort (p : Port) : SectorsAccounted (setPort p s) := h.setHost _

theorem SectorsAccounted.respond (code : ResponseCode) (command : Byte) (data : List Byte) :
    SectorsAccounted (respond code command data s) := h.setLink _

theorem SectorsAccounted.longDone : SectorsAccounted (longDone s) := by
  rw [longDone_eq]
  exact h.setLink _

theorem SectorsAccounted.countStall : SectorsAccounted (countStall s) := by
  obtain ⟨x, k, e⟩ := countStall_shape s
  rw [e]
  exact (h.setHost x).setLink k

/-! ### The schedulers -/

theorem SectorsAccounted.setDies {ds : PerDie Die}
    (ops : ∀ d, List.Subperm (scannerOps (ds.get d)) (scannerOps (s.dies.get d))) :
    SectorsAccounted (s.setDies ds) := by
  obtain ⟨sets, work, scan⟩ := h
  refine ⟨{ sets with }, { work with }, { scan with asks := fun d => ?_ }⟩
  rcases scan.asks d with hnone | ⟨p, hp, hd, hone⟩
  · exact .inl (List.subperm_nil.mp (hnone ▸ ops d))
  · exact (eq_nil_or_singleton (ops d) hone).imp_right fun e => ⟨p, hp, hd, e⟩

theorem SectorsAccounted.setDie {d : DieId} {x : Die}
    (ops : List.Subperm (scannerOps x) (scannerOps (s.dies.get d))) :
    SectorsAccounted (setDie d x s) := by
  refine h.setDies fun e => ?_
  by_cases he : e = d
  · subst he
    rw [PerDie.get_set_same]
    exact ops
  · rw [PerDie.get_set_other _ _ he]

theorem SectorsAccounted.setDieState {d : DieId} {x : DieState}
    (ops : x.scannerOps = [] ∨ x.scannerOps = (s.dies.get d).state.scannerOps) :
    SectorsAccounted (setDieState d x s) :=
  h.setDie (scannerOps_subperm rfl ops)

theorem SectorsAccounted.issue {who : Requester} (hwho : who ≠ .scanner) (op : DieOp) :
    SectorsAccounted (issue who op s) := by
  refine h.setDie ?_
  have hb : (who == Requester.scanner) = false := by simp [hwho]
  simp [scannerOps_eq, scannerWaits, hb, List.Subperm.refl]

theorem SectorsAccounted.cutInProgress (d : DieId) : SectorsAccounted (cutInProgress d s) := by
  unfold Machine.cutInProgress
  split
  case h_1 | h_2 | h_3 | h_4 | h_5 => exact (h.setMedium _).setDraws _
  case h_6 | h_7 | h_8 | h_9 => exact h

theorem SectorsAccounted.dieReset {d : DieId} {cause : ResetCause}
    (ops : (DieState.resetting cause 0 false).scannerOps = [] ∨
      (DieState.resetting cause 0 false).scannerOps = (s.dies.get d).state.scannerOps) :
    SectorsAccounted (dieReset d cause s) := by
  have same : (Machine.cutInProgress d s).dies = s.dies := by
    unfold Machine.cutInProgress
    split <;> rfl
  exact (h.cutInProgress d).setDieState (by rwa [same])

end Plain

theorem takenState_scannerOps (r : Request) : (takenState r).scannerOps = [] ∨
    r.requester = .scanner ∧ (takenState r).scannerOps = [r.op] := by
  by_cases hr : r.requester = .scanner <;> cases hop : r.op <;>
    simp [takenState, hop, DieState.scannerOps, hr]

theorem mem_of_arbiterChoice {ws : List Request} {r : Request} (h : arbiterChoice ws = some r) :
    r ∈ ws := by
  rcases Option.or_eq_some_iff.mp h with h | ⟨-, h⟩
  · exact List.mem_of_find?_eq_some h
  · rcases Option.or_eq_some_iff.mp h with h | ⟨-, h⟩ <;> exact List.mem_of_find?_eq_some h

theorem mem_of_holdChoice {ws : List Request} {r : Request} (h : holdChoice ws = some r) :
    r ∈ ws := by
  rcases Option.or_eq_some_iff.mp h with h | ⟨-, h⟩ <;> exact List.mem_of_find?_eq_some h

section Schedulers

variable {s : State} (h : SectorsAccounted s)

include h

theorem SectorsAccounted.settleDie (d : DieId) : SectorsAccounted (settleDie d s) := by
  unfold Machine.settleDie
  dsimp only
  split
  · exact h
  · split
    next hst =>
      split
      next r hr => exact h.setDie (scannerOps_taken (mem_of_arbiterChoice hr)
          (takenState_scannerOps r) (s.dies.get d).reported)
      next => exact h.setDie (scannerOps_subperm rfl (.inr rfl))
    next run abandon hst =>
      split
      · exact h.dieReset (.inl rfl)
      · split
        next r hr =>
          refine h.setDie (scannerOps_taken (mem_of_holdChoice hr) ?_ false)
          by_cases hwho : r.requester = .scanner <;> simp [DieState.scannerOps, hwho]
        next => exact h.setDieState (.inl rfl)
    next =>
      split
      · exact h.setDieState (.inl rfl)
      · exact h
    all_goals exact h

theorem SectorsAccounted.settle : SectorsAccounted (settle s) := (h.settleDie _).settleDie _

theorem SectorsAccounted.endOperation (d : DieId) : SectorsAccounted (endOperation d s) := by
  unfold Machine.endOperation
  split
  case h_1 | h_2 | h_3 => exact h.setDieState (.inl rfl)
  all_goals exact h

theorem SectorsAccounted.endProgram (op : DieOp) (ok : Bool) :
    SectorsAccounted (endProgram op ok s).1 := (h.setMedium _).setDraws _

end Schedulers

end Sys2Proof.Machine
end

section
/-!
PROOFS. Sector accounting through writes to the buffer, the map and the relocation queue: sealing,
presented writes, requests to queue a sector, and the passing of time.
-/

namespace Sys2Proof.Machine

open Sys2Proof

/-! ### What each part reads -/

theorem boundPhys_congr {s t : State} (map : t.map = s.map) (l : Sector) :
    boundPhys t l = boundPhys s l := by rw [boundPhys, mapEntry_congr map, boundPhys]

theorem WorkAgrees.congr {s t : State} (h : WorkAgrees s) (wmb : t.wmb = s.wmb)
    (map : t.map = s.map) (lanes : t.lanes = s.lanes) (reloc : t.reloc = s.reloc)
    (release : t.release = s.release) : WorkAgrees t where
  job := by simpa only [reloc, boundPhys_congr map, mapEntry_congr map] using h.job
  queued := by simpa only [reloc, mapEntry_congr map] using h.queued
  queuedOnce := by simpa only [reloc] using h.queuedOnce
  release := by simpa only [release, boundPhys_congr map, mapEntry_congr map] using h.release
  committing := by simpa only [wmb, mapEntry_congr map] using h.committing
  lane := by simpa only [wmb, lanes] using h.lane

theorem ScanAgrees.congr {s t : State} (h : ScanAgrees s) (dies : t.dies = s.dies)
    (scan : t.scan = s.scan) : ScanAgrees t where
  keys := by simpa only [scan] using h.keys
  candidates := by simpa only [scan] using h.candidates
  candidateOnce := by simpa only [scan] using h.candidateOnce
  asks := by simpa only [scan, dies] using h.asks
  ahead := by simpa only [scan] using h.ahead

/-- A sector goes from set to set, and nothing at work on a sector changes. -/
theorem SectorsAccounted.of_sets {s t : State} (h : SectorsAccounted s) (sets : SetsAgree t)
    (wmb : t.wmb = s.wmb) (map : t.map = s.map) (lanes : t.lanes = s.lanes)
    (reloc : t.reloc = s.reloc) (dies : t.dies = s.dies) (scan : t.scan = s.scan)
    (release : t.release = s.release) : SectorsAccounted t :=
  ⟨sets, h.2.1.congr wmb map lanes reloc release, h.2.2.congr dies scan⟩

/-- The accounting reads these blocks alone. -/
theorem SectorsAccounted.congr {s t : State} (h : SectorsAccounted s) (wmb : t.wmb = s.wmb)
    (map : t.map = s.map) (acct : t.acct = s.acct) (lanes : t.lanes = s.lanes)
    (reloc : t.reloc = s.reloc) (slots : t.erase.slots = s.erase.slots) (dies : t.dies = s.dies)
    (scan : t.scan = s.scan) (release : t.release = s.release) : SectorsAccounted t :=
  h.of_sets (h.1.congr acct (boundPhys_congr map) (by rw [reloc]) fun d => by rw [slots]) wmb map
    lanes reloc dies scan release

/-! ### The buffer -/

/-- The lane has taken the entry of an open order (R60). -/
def Lane.holds (lane : Lane) (id : Nat) : Prop :=
  (∃ p, lane = .reading id p) ∨ ∃ p medium target, lane = .programming id p medium target

@[simp] theorem Lane.holds_idle (id : Nat) : ¬ Lane.holds .idle id := by simp [Lane.holds]

@[simp] theorem Lane.holds_reading {id x : Nat} {p : Phys} :
    Lane.holds (.reading x p) id ↔ x = id := by simp [Lane.holds]

@[simp] theorem Lane.holds_programming {id x : Nat} {p : Phys} {medium target : LineData} :
    Lane.holds (.programming x p medium target) id ↔ x = id := by simp [Lane.holds]

theorem Entry.isCommitting_of_stage {e x : Entry} (h : e.stage = x.stage) :
    e.isCommitting = x.isCommitting := by
  rw [Entry.isCommitting, h, Entry.isCommitting]

theorem Entry.sector_of_line {e x : Entry} (h : e.line = x.line) : e.sector = x.sector :=
  congrArg sectorOf h

/-- An entry that is not COMMITTING before or after, or is in the stage it was in. -/
def Entry.settledAs (e x : Entry) : Prop :=
  e.stage = x.stage ∨ e.isCommitting = false ∧ x.isCommitting = false

/-- Each entry of the new buffer is one of the old, or is new and not COMMITTING. -/
structure WmbFollows (v w : Wmb) : Prop where
  counter : v.openCounter ≤ w.openCounter
  entries : ∀ e ∈ w.entries,
    (∃ x ∈ v.entries, e.openOrder = x.openOrder ∧ e.line = x.line ∧ e.settledAs x) ∨
      e.isCommitting = false ∧ v.openCounter ≤ e.openOrder

theorem WmbFollows.of_entries {v w : Wmb} (counter : w.openCounter = v.openCounter)
    (entries : ∀ e ∈ w.entries, ∃ x ∈ v.entries,
      e.openOrder = x.openOrder ∧ e.line = x.line ∧ e.settledAs x) : WmbFollows v w :=
  ⟨Nat.le_of_eq counter.symm, fun e he => .inl (entries e he)⟩

theorem Wmb.sealAt_follows (id : Nat) (w : Wmb) : WmbFollows w (w.sealAt id) := by
  refine .of_entries rfl fun e he => ?_
  obtain ⟨x, hx, line, -, order, same⟩ := Wmb.mem_sealAt he
  refine ⟨x, hx, order, line, ?_⟩
  rcases same with ⟨rfl, -⟩ | ⟨-, hopen, hstage⟩
  · exact .inl rfl
  · refine .inr ⟨by simp [Entry.isCommitting, hstage], ?_⟩
    cases h : x.stage <;> simp [Entry.isOpen, Entry.isCommitting, h] at hopen ⊢

theorem Wmb.mergeAt_follows (id : Nat) (bytes : List (Option Byte)) (w : Wmb) :
    WmbFollows w (w.mergeAt id bytes) := by
  refine .of_entries rfl fun e he => ?_
  obtain ⟨x, hx, line, order, stage, -⟩ := Wmb.mem_mergeAt he
  exact ⟨x, hx, order, line, .inl stage⟩

theorem Wmb.openAt_follows (line : LineNo) (bytes : List (Option Byte)) (w : Wmb) :
    WmbFollows w (w.openAt line bytes) := by
  refine ⟨Nat.le_succ _, fun e he => ?_⟩
  rcases List.mem_append.mp he with he | he
  · exact .inl ⟨e, he, rfl, rfl, .inl rfl⟩
  · obtain rfl := List.mem_singleton.mp he
    exact .inr ⟨rfl, Nat.le_refl _⟩

theorem Wmb.filter_follows (p : Entry → Bool) (w : Wmb) :
    WmbFollows w { w with entries := w.entries.filter p } :=
  .of_entries rfl fun e he => ⟨e, (List.mem_filter.mp he).1, rfl, rfl, .inl rfl⟩

theorem Wmb.elapse_follows (dt : Nat) (w : Wmb) :
    WmbFollows w { w with entries := w.entries.map (Entry.elapse dt) } := by
  refine .of_entries rfl fun e he => ?_
  obtain ⟨x, hx, rfl⟩ := List.mem_map.mp he
  obtain ⟨line, -, order⟩ := Entry.elapse_same dt x
  refine ⟨x, hx, order, line, ?_⟩
  unfold Entry.settledAs
  cases h : x.stage <;> simp [Entry.elapse, Entry.isCommitting, h]

section Buffer

variable {s : State} (h : SectorsAccounted s)

include h

/-- No COMMITTING entry is of a releasing sector, and a lane's entry is COMMITTING under it (R16,
R29). -/
theorem SectorsAccounted.setWmb {w : Wmb} (counter : s.wmb.openCounter ≤ w.openCounter)
    (committing : ∀ e ∈ w.entries, e.isCommitting = true → (mapEntry s e.sector).releasing = false)
    (lane : ∀ e ∈ w.entries, ∀ d, (s.lanes.get d).holds e.openOrder →
      ∃ o, e.stage = .committing o (.lane d)) : SectorsAccounted (s.setWmb w) := by
  obtain ⟨sets, work, scan⟩ := h
  refine ⟨{ sets with }, { work with committing := committing, lane := fun d id hd => ?_ },
    { scan with }⟩
  refine ⟨Nat.lt_of_lt_of_le (work.lane d id hd).1 counter, fun e he order => ?_⟩
  exact lane e he d (order ▸ hd)

theorem SectorsAccounted.wmbFollows {w : Wmb} (follows : WmbFollows s.wmb w) :
    SectorsAccounted (s.setWmb w) := by
  refine h.setWmb follows.counter (fun e he hc => ?_) fun e he d hd => ?_
  · rcases follows.entries e he with ⟨x, hx, -, line, same | ⟨hn, -⟩⟩ | ⟨hn, -⟩
    · rw [Entry.sector_of_line line]
      exact h.2.1.committing x hx (Entry.isCommitting_of_stage same ▸ hc)
    · rw [hn] at hc; cases hc
    · rw [hn] at hc; cases hc
  · obtain ⟨below, held⟩ := h.2.1.lane d _ hd
    rcases follows.entries e he with ⟨x, hx, order, -, same⟩ | ⟨-, above⟩
    · obtain ⟨o, stage⟩ := held x hx order.symm
      rcases same with same | ⟨-, hn⟩
      · exact ⟨o, same.trans stage⟩
      · simp [Entry.isCommitting, stage] at hn
    · exact absurd below (Nat.not_lt.mpr above)

theorem SectorsAccounted.setEntries_filter (p : Entry → Bool) :
    SectorsAccounted (setEntries (s.wmb.entries.filter p) s) :=
  h.wmbFollows (Wmb.filter_follows p s.wmb)

theorem SectorsAccounted.freeWhere (p : Entry → Bool) : SectorsAccounted (freeWhere p s) :=
  h.setEntries_filter _

theorem SectorsAccounted.discardWhere (p : Entry → Bool) : SectorsAccounted (discardWhere p s).1 :=
  (h.freeWhere p).countUp _ _

theorem SectorsAccounted.setBoundary (b : Option Nat) :
    SectorsAccounted (s.setWmb { s.wmb with boundary := b }) :=
  h.wmbFollows (.of_entries rfl fun e he => ⟨e, he, rfl, rfl, .inl rfl⟩)

theorem SectorsAccounted.setCommitDelay (x : BitVec 16) :
    SectorsAccounted (s.setWmb { s.wmb with commitDelay := x }) :=
  h.wmbFollows (.of_entries rfl fun e he => ⟨e, he, rfl, rfl, .inl rfl⟩)

end Buffer

/-! ### The map and the relocation queue -/

theorem boundPhys_setMapEntry {l : Sector} {e : MapEntry} {s : State}
    (binding : e.binding = (mapEntry s l).binding) (x : Sector) :
    boundPhys (setMapEntry l e s) x = boundPhys s x := by
  by_cases hx : x = l
  · subst hx
    rw [boundPhys, mapEntry_setMapEntry_same, binding, boundPhys]
  · rw [boundPhys, mapEntry_setMapEntry_other _ _ hx, boundPhys]

theorem SetsAgree.setMapEntry {s : State} (h : SetsAgree s) {l : Sector} {e : MapEntry}
    (binding : e.binding = (mapEntry s l).binding) : SetsAgree (setMapEntry l e s) :=
  h.congr rfl (boundPhys_setMapEntry binding) rfl fun _ => rfl

section Map

variable {s : State} (h : SectorsAccounted s) {l : Sector}

include h

/-- A sector that the engine does not relocate takes another relocation field, and the queue another
record of it (R77, R78). -/
theorem SectorsAccounted.setField {f : RelocField} {q : List RelocRecord}
    (free : ∀ j, s.reloc.engine.beforeSwitch = some j → j.sector ≠ l)
    (queue : ∀ r ∈ q, r ∈ s.reloc.queue ∧ r.sector ≠ l ∨
      r.sector = l ∧ f = .queued r.reason ∧ (mapEntry s l).releasing = false)
    (once : (q.map (·.sector)).Nodup) :
    SectorsAccounted (setMapEntry l { mapEntry s l with reloc := f }
      (s.setReloc { s.reloc with queue := q })) := by
  obtain ⟨sets, work, scan⟩ := h
  let u := s.setReloc { s.reloc with queue := q }
  have left : SetsAgree u := sets.congr rfl (fun _ => rfl) rfl fun _ => rfl
  have bound (x : Sector) : boundPhys
      (setMapEntry l { mapEntry s l with reloc := f } u) x = boundPhys s x :=
    boundPhys_setMapEntry (s := u) (e := { mapEntry s l with reloc := f }) rfl x
  have other {x : Sector} (hx : x ≠ l) : mapEntry
      (setMapEntry l { mapEntry s l with reloc := f } u) x = mapEntry s x :=
    mapEntry_setMapEntry_other _ _ hx
  have same : mapEntry (setMapEntry l { mapEntry s l with reloc := f } u) l =
      { mapEntry s l with reloc := f } := mapEntry_setMapEntry_same _ _ _
  have flag (x : Sector) : (mapEntry
      (setMapEntry l { mapEntry s l with reloc := f } u) x).releasing =
        (mapEntry s x).releasing := by
    by_cases hx : x = l
    · rw [hx, same]
    · rw [other hx]
  refine ⟨left.setMapEntry (s := u) rfl, ?_, { scan with }⟩
  constructor
  case job =>
    intro j hj
    rw [bound, other (free j hj)]
    exact work.job j hj
  case queued =>
    intro r hr
    rcases queue r hr with ⟨hr, hne⟩ | ⟨rfl, rfl, hflag⟩
    · rw [other hne]
      exact work.queued r hr
    · rw [same]
      exact ⟨rfl, hflag⟩
  case queuedOnce => exact once
  case release =>
    intro r hr
    rw [bound, flag]
    exact work.release r hr
  case committing =>
    intro e he hc
    rw [flag]
    exact work.committing e he hc
  case lane => exact work.lane

/-- A sector that is neither releasing nor at the engine is queued anew. -/
theorem SectorsAccounted.enqueue {reason : RelocReason} {q : List RelocRecord}
    (free : ∀ j, s.reloc.engine.beforeSwitch = some j → j.sector ≠ l)
    (flag : (mapEntry s l).releasing = false)
    (queue : ∀ r ∈ q, r ∈ s.reloc.queue ∧ r.sector ≠ l ∨ r = ⟨l, reason⟩)
    (once : (q.map (·.sector)).Nodup) :
    SectorsAccounted (setMapEntry l { mapEntry s l with reloc := .queued reason }
      (s.setReloc { s.reloc with queue := q })) :=
  h.setField free (fun r hr => (queue r hr).imp_right fun e => by simp [e, flag]) once

/-- A sector with no record in the queue. -/
theorem SectorsAccounted.not_queued (field : ∀ r, (mapEntry s l).reloc ≠ .queued r)
    {r : RelocRecord} (hr : r ∈ s.reloc.queue) : r.sector ≠ l := by
  rintro rfl
  exact field _ (h.2.1.queued r hr).1

theorem SectorsAccounted.not_relocated (field : ∀ p b, (mapEntry s l).reloc ≠ .inFlight p b)
    (j : Job) (hj : s.reloc.engine.beforeSwitch = some j) : j.sector ≠ l := by
  rintro rfl
  obtain ⟨-, -, b, hb⟩ := h.2.1.job j hj
  exact field _ b hb

/-- The entry's suspect flag, or a mark in its relocation field, tells nothing of the sets. -/
theorem SectorsAccounted.markEntry {e : MapEntry} (binding : e.binding = (mapEntry s l).binding)
    (releasing : e.releasing = (mapEntry s l).releasing)
    (field : e.reloc = (mapEntry s l).reloc ∨
      ∃ p b b', (mapEntry s l).reloc = .inFlight p b ∧ e.reloc = .inFlight p b') :
    SectorsAccounted (setMapEntry l e s) := by
  obtain ⟨sets, work, scan⟩ := h
  have bound := boundPhys_setMapEntry binding
  have flag (x : Sector) : (mapEntry (setMapEntry l e s) x).releasing =
      (mapEntry s x).releasing := by
    by_cases hx : x = l
    · rw [hx, mapEntry_setMapEntry_same, releasing]
    · rw [mapEntry_setMapEntry_other _ _ hx]
  have queuedField (x : Sector) (r : RelocReason) (hr : (mapEntry s x).reloc = .queued r) :
      (mapEntry (setMapEntry l e s) x).reloc = .queued r := by
    by_cases hx : x = l
    · subst hx
      rw [mapEntry_setMapEntry_same]
      rcases field with hf | ⟨p, b, b', hf, -⟩
      · rw [hf, hr]
      · rw [hf] at hr; cases hr
    · rwa [mapEntry_setMapEntry_other _ _ hx]
  have flightField (x : Sector) (p : Option Phys) (b : Bool)
      (hr : (mapEntry s x).reloc = .inFlight p b) :
      ∃ b', (mapEntry (setMapEntry l e s) x).reloc = .inFlight p b' := by
    by_cases hx : x = l
    · subst hx
      rw [mapEntry_setMapEntry_same]
      rcases field with hf | ⟨p', b', b'', hf, he⟩
      · exact ⟨b, hf.trans hr⟩
      · rw [hf] at hr
        injection hr with hp
        exact ⟨b'', hp ▸ he⟩
    · exact ⟨b, by rwa [mapEntry_setMapEntry_other _ _ hx]⟩
  refine ⟨sets.setMapEntry binding, ?_, { scan with }⟩
  constructor
  case job =>
    intro j hj
    obtain ⟨source, notReleasing, b, hb⟩ := work.job j hj
    rw [bound, flag]
    exact ⟨source, notReleasing, flightField _ _ b hb⟩
  case queued =>
    intro r hr
    obtain ⟨hf, notReleasing⟩ := work.queued r hr
    rw [flag]
    exact ⟨queuedField _ _ hf, notReleasing⟩
  case queuedOnce => exact work.queuedOnce
  case release =>
    intro r hr
    rw [bound, flag]
    exact work.release r hr
  case committing =>
    intro x hx hc
    rw [flag]
    exact work.committing x hx hc
  case lane => exact work.lane

theorem SectorsAccounted.enqueueFront {reason : RelocReason}
    (field : (mapEntry s l).reloc = .absent) (flag : (mapEntry s l).releasing = false) :
    SectorsAccounted (setMapEntry l { mapEntry s l with reloc := .queued reason }
      (s.setReloc { s.reloc with queue := ⟨l, reason⟩ :: s.reloc.queue })) := by
  have others {r : RelocRecord} (hr : r ∈ s.reloc.queue) : r.sector ≠ l :=
    h.not_queued (by simp [field]) hr
  refine h.enqueue (h.not_relocated (by simp [field])) flag (fun r hr => ?_) ?_
  · exact (List.mem_cons.mp hr).symm.imp_left fun hr => ⟨hr, others hr⟩
  · refine List.nodup_cons.mpr ⟨fun hl => ?_, h.2.1.queuedOnce⟩
    obtain ⟨r, hr, e⟩ := List.mem_map.mp hl
    exact others hr e

theorem SectorsAccounted.enqueueTail {reason : RelocReason}
    (free : ∀ j, s.reloc.engine.beforeSwitch = some j → j.sector ≠ l)
    (field : ∀ r, (mapEntry s l).reloc ≠ .queued r) (flag : (mapEntry s l).releasing = false) :
    SectorsAccounted (setMapEntry l { mapEntry s l with reloc := .queued reason }
      (s.setReloc { s.reloc with queue := s.reloc.queue ++ [⟨l, reason⟩] })) := by
  refine h.enqueue free flag (fun r hr => ?_) ?_
  · rcases List.mem_append.mp hr with hr | hr
    · exact .inl ⟨hr, h.not_queued field hr⟩
    · exact .inr (List.mem_singleton.mp hr)
  · rw [List.map_append, List.nodup_append]
    refine ⟨h.2.1.queuedOnce, List.nodup_singleton _, fun a ha b hb hab => ?_⟩
    obtain ⟨r, hr, rfl⟩ := List.mem_map.mp ha
    exact h.not_queued field hr (hab.trans (List.mem_singleton.mp hb))

theorem SectorsAccounted.enqueueAgain {reason : RelocReason}
    (field : ∀ p b, (mapEntry s l).reloc ≠ .inFlight p b)
    (flag : (mapEntry s l).releasing = false) :
    SectorsAccounted (setMapEntry l { mapEntry s l with reloc := .queued reason }
      (s.setReloc { s.reloc with
        queue := ⟨l, reason⟩ :: s.reloc.queue.filter fun r => r.sector ≠ l })) := by
  refine h.enqueue (h.not_relocated field) flag (fun r hr => ?_) ?_
  · refine (List.mem_cons.mp hr).symm.imp_left fun hr => ?_
    simpa using List.mem_filter.mp hr
  · refine List.nodup_cons.mpr ⟨fun hl => ?_, h.2.1.queuedOnce.sublist (List.filter_sublist.map _)⟩
    obtain ⟨r, hr, e⟩ := List.mem_map.mp hl
    simpa [e] using (List.mem_filter.mp hr).2

/-- A request to queue a sector that is not releasing (R78). -/
theorem SectorsAccounted.requestReloc (flag : (mapEntry s l).releasing = false)
    (reason : RelocReason) : SectorsAccounted (requestReloc l reason s) := by
  unfold Machine.requestReloc
  dsimp only
  split
  case h_1 hf => exact h.enqueueFront hf flag
  case h_2 hf | h_3 hf =>
    exact h.enqueueTail (h.not_relocated (by simp [hf])) (by simp [hf]) flag
  case h_5 _ hf => exact h.enqueueAgain (by simp [hf]) flag
  case h_7 p b hf => exact h.markEntry rfl rfl (.inr ⟨p, b, true, hf, rfl⟩)
  all_goals exact h

/-! ### Sealing -/

theorem SectorsAccounted.sealEntry (id : Nat) : SectorsAccounted (sealEntry id s) := by
  have sealed := h.wmbFollows (Wmb.sealAt_follows id s.wmb)
  rcases sealEntry_cases id s with ⟨e, -⟩ | ⟨x, -, -, -, e | ⟨-, -, flag, e⟩⟩ <;> rw [e]
  · exact h
  · exact sealed
  · exact sealed.requestReloc flag .backing

end Map

theorem DieState.elapse_scannerOps (op : OpState) (dt : Nat) (st : DieState) :
    (st.elapse op dt).scannerOps = st.scannerOps := by
  cases st with
  | idle => rfl
  | held run abandon => rfl
  | resetting cause time answered =>
    cases cause with
    | timeout who op' held => cases who <;> rfl
    | _ => rfl
  | _ => by_cases hop : op = .failed <;> simp [DieState.elapse, DieState.scannerOps, hop]

section Sealing

variable {s : State} (h : SectorsAccounted s)

include h

theorem SectorsAccounted.sealWhere (p : Entry → Bool) : SectorsAccounted (sealWhere p s) := by
  unfold Machine.sealWhere
  generalize (s.wmb.entries.filter fun e => e.isOpen && p e).map (·.openOrder) = ids
  induction ids generalizing s with
  | nil => exact h
  | cons id rest ih => exact ih (h.sealEntry id)

theorem SectorsAccounted.sealAll : SectorsAccounted (sealAll s) := h.sealWhere _

theorem SectorsAccounted.sealOldest : SectorsAccounted (sealOldest s) := by
  unfold Machine.sealOldest
  split
  · exact h.sealEntry _
  · exact h

theorem SectorsAccounted.afterOpening (line : LineNo) (bytes : List (Option Byte)) :
    SectorsAccounted (afterOpening line bytes s) := by
  have opened := h.wmbFollows (Wmb.openAt_follows line bytes s.wmb)
  unfold Machine.afterOpening
  dsimp only
  split
  · exact opened.sealEntry _
  · exact opened

theorem SectorsAccounted.openEntry (line : LineNo) (bytes : List (Option Byte)) :
    SectorsAccounted (openEntry line bytes s) := by
  have opened := h.afterOpening line bytes
  rw [openEntry_eq]
  split
  · exact opened.sealOldest
  · exact opened

theorem SectorsAccounted.mergeEntry (e : Entry) (bytes : List (Option Byte)) :
    SectorsAccounted (mergeEntry e bytes s) := by
  have merged := h.wmbFollows (Wmb.mergeAt_follows e.openOrder bytes s.wmb)
  unfold Machine.mergeEntry
  dsimp only
  split
  · exact merged.sealEntry _
  · exact merged

theorem SectorsAccounted.presentWrite {t : State} {line : LineNo} {bytes : List (Option Byte)}
    (hp : presentWrite line bytes s = some t) : SectorsAccounted t := by
  unfold Machine.presentWrite at hp
  split at hp
  · obtain rfl := Option.some.inj hp
    exact h.mergeEntry _ _
  · split at hp
    · obtain rfl := Option.some.inj hp
      exact h.openEntry _ _
    · cases hp

/-! ### Time -/

theorem SectorsAccounted.elapse (dt : Nat) : SectorsAccounted (elapse dt s) := by
  refine SectorsAccounted.countStall ?_
  rw [advance_eq]
  refine (SectorsAccounted.setDies ((h.wmbFollows (Wmb.elapse_follows dt s.wmb)).setHost _)
    fun d => ?_).setNow _
  have same (die : Die) : scannerOps (die.elapse s.power.op dt) = scannerOps die := by
    exact scannerOps_of_same rfl (DieState.elapse_scannerOps _ _ _)
  cases d <;> exact (same _).symm ▸ List.Subperm.refl _

end Sealing

end Sys2Proof.Machine
end

section
/-!
PROOFS. Sector accounting through the host port, the management link and the commit lanes.
-/

namespace Sys2Proof.Machine

open Sys2Proof

section Port

variable {s : State} (h : SectorsAccounted s)

include h

/-! ### The host port -/

theorem SectorsAccounted.completeRead (cycle : HostCycle) (w : HostWord) :
    SectorsAccounted (completeRead cycle w s) := (h.setPort _).countUp _ _

theorem SectorsAccounted.refuseWrite (cycle : HostCycle) : SectorsAccounted (refuseWrite cycle s) :=
  (h.setPort _).countUp _ _

theorem SectorsAccounted.refuseDegraded (cycle : HostCycle) :
    SectorsAccounted (refuseDegraded cycle s) := (h.record _).refuseWrite _

theorem SectorsAccounted.takeOrHold (x : HeldCycle) (data : HostWord) :
    SectorsAccounted (takeOrHold x data s) := by
  unfold Machine.takeOrHold
  split
  next hp => exact ((h.presentWrite hp).setPort _).countUp _ _
  next => exact h.setPort _

theorem SectorsAccounted.writePastRegion (x : HeldCycle) (data : HostWord) :
    SectorsAccounted (writePastRegion x data s) := by
  unfold Machine.writePastRegion
  split
  · exact h.refuseDegraded _
  · split
    · exact h.takeOrHold _ _
    · exact h.setPort _

theorem SectorsAccounted.arriveWrite (x : HeldCycle) (data : HostWord) :
    SectorsAccounted (arriveWrite x data s) := by
  unfold Machine.arriveWrite
  split
  · split
    · exact (h.record _).refuseWrite _
    · exact h.writePastRegion _ _
  · exact h.writePastRegion _ _

theorem SectorsAccounted.readPastRegion (x : HeldCycle) :
    SectorsAccounted (readPastRegion x s) := by
  unfold Machine.readPastRegion
  dsimp only
  split
  · split
    · exact h.completeRead _ _
    · exact (h.setPort _).issue (by decide) _
  · exact h.completeRead _ _

theorem SectorsAccounted.arriveRead (x : HeldCycle) : SectorsAccounted (arriveRead x s) := by
  unfold Machine.arriveRead
  split
  · split
    · exact (h.record _).completeRead _ _
    · exact h.readPastRegion _
  · exact h.readPastRegion _

theorem SectorsAccounted.handleArrival (x : HeldCycle) : SectorsAccounted (handleArrival x s) := by
  unfold Machine.handleArrival
  split
  · split <;> exact h.setPort _
  · split
    · exact h.setPort _
    · exact h.completeRead _ _
    · exact h.refuseWrite _
    · exact h.arriveRead _
    · exact h.arriveRead _
    · exact h.arriveWrite _ _
    · exact h.arriveWrite _ _

theorem SectorsAccounted.portReturns (next : Option HeldCycle) :
    SectorsAccounted (portReturns next s) := by
  unfold Machine.portReturns
  split
  · exact (h.setPort _).handleArrival _
  · exact h.setPort _

theorem SectorsAccounted.abandonCycle : SectorsAccounted (abandonCycle s) := by
  unfold Machine.abandonCycle
  split
  case h_6 | h_7 => exact h
  all_goals exact h.setPort _

theorem SectorsAccounted.endCycle : SectorsAccounted (endCycle s) := by
  unfold Machine.endCycle
  split
  · exact h.setPort _
  all_goals exact h

theorem SectorsAccounted.arrive (cycle : HostCycle) : SectorsAccounted (arrive cycle s) := by
  unfold Machine.arrive
  dsimp only
  split
  · exact h.abandonCycle.endCycle.setPort _
  · split
    · exact h.abandonCycle.endCycle.setPort _
    all_goals exact h.abandonCycle.endCycle.handleArrival _

theorem SectorsAccounted.portReadResult (line : LineData) :
    SectorsAccounted (portReadResult line s) := by
  unfold Machine.portReadResult
  split
  · exact h.completeRead _ _
  · exact h.portReturns _
  all_goals exact h

theorem SectorsAccounted.portReadTimeout : SectorsAccounted (portReadTimeout s) := by
  unfold Machine.portReadTimeout
  split
  · exact h.issue (by decide) _
  · exact h.portReturns _
  all_goals exact h

theorem SectorsAccounted.portEntersFailed : SectorsAccounted (portEntersFailed s) := by
  unfold Machine.portEntersFailed
  split
  · exact h.completeRead _ _
  · exact h.portReturns _
  · exact h.refuseWrite _
  · exact h.handleArrival _
  all_goals exact h

theorem SectorsAccounted.presentHeldWrite : SectorsAccounted (presentHeldWrite s) := by
  unfold Machine.presentHeldWrite
  split
  · split
    · exact h.writePastRegion _ _
    · exact h
  · exact h

theorem SectorsAccounted.handleHeldCycle : SectorsAccounted (handleHeldCycle s) := by
  unfold Machine.handleHeldCycle
  split
  · exact h.handleArrival _
  all_goals exact h

/-! ### The management link -/

theorem SectorsAccounted.reportDrain : SectorsAccounted (reportDrain s) := by
  unfold Machine.reportDrain
  dsimp only
  split
  · split
    · exact (h.setBoundary _).longDone
    · exact h.setBoundary _
  · exact h

theorem SectorsAccounted.answerLong (command : LongCommand) (code : Byte) (done : Bool) :
    SectorsAccounted (answerLong command code done s) :=
  SectorsAccounted.respond (h.setLink _) _ _ _

theorem SectorsAccounted.acceptFlush : SectorsAccounted (acceptFlush s) := by
  have sealed := (h.setBoundary (some s.wmb.openCounter)).sealAll
  unfold Machine.acceptFlush
  dsimp only
  split
  · exact (sealed.setBoundary _).answerLong _ _ _
  · exact sealed.answerLong _ _ _

theorem SectorsAccounted.unlessStarting {command : Byte} {answer : State → State}
    (answered : SectorsAccounted (answer s)) :
    SectorsAccounted (unlessStarting command answer s) := by
  unfold Machine.unlessStarting
  split
  · exact h.respond _ _ _
  · exact answered

theorem SectorsAccounted.unlessRefused {command : Byte} {answer : State → State}
    (answered : SectorsAccounted (answer s)) :
    SectorsAccounted (unlessRefused command answer s) := by
  unfold Machine.unlessRefused
  split
  · exact h.respond _ _ _
  · exact answered

theorem SectorsAccounted.unlessBusy {command : Byte} {answer : State → State}
    (answered : SectorsAccounted (answer s)) : SectorsAccounted (unlessBusy command answer s) := by
  refine h.unlessRefused ?_
  split
  · exact h.respond _ _ _
  · exact answered

theorem SectorsAccounted.answerSetTiming (delay threshold : BitVec 16) :
    SectorsAccounted (answerSetTiming delay threshold s) := by
  by_cases ht : threshold = 0
  · rw [Machine.answerSetTiming, if_pos ht]
    exact h.respond _ _ _
  · rw [answerSetTiming_of_ne ht]
    exact ((h.setCommitDelay delay).setHost _ |>.sealWhere _).countStall.respond _ _ _

theorem SectorsAccounted.answerWriteRegion (index : Byte) (first last : BitVec 16)
    (mode enabled : Byte) :
    SectorsAccounted (answerWriteRegion index first last mode enabled s) := by
  unfold Machine.answerWriteRegion
  split
  · split
    · exact h.respond _ _ _
    · exact (h.setRegions _).respond _ _ _
  · exact h.respond _ _ _

theorem SectorsAccounted.answerFreezeRegion (index : Byte) :
    SectorsAccounted (answerFreezeRegion index s) := by
  unfold Machine.answerFreezeRegion
  split
  · exact (h.setRegions _).respond _ _ _
  · exact h.respond _ _ _

theorem SectorsAccounted.answerReadRegion (index : Byte) :
    SectorsAccounted (answerReadRegion index s) := by
  unfold Machine.answerReadRegion
  split <;> exact h.respond _ _ _

theorem SectorsAccounted.answerReadFault : SectorsAccounted (answerReadFault s) := by
  unfold Machine.answerReadFault
  split <;> exact (h.setLink _).respond _ _ _

theorem SectorsAccounted.answerMapQuery (n : BitVec 16) :
    SectorsAccounted (answerMapQuery n s) := by
  unfold Machine.answerMapQuery
  split <;> exact h.respond _ _ _

theorem SectorsAccounted.answerSectorQuery (n : BitVec 16) :
    SectorsAccounted (answerSectorQuery n s) := by
  unfold Machine.answerSectorQuery
  split <;> exact h.respond _ _ _

theorem SectorsAccounted.answerEventEnable (enables : Byte) :
    SectorsAccounted (answerEventEnable enables s) := by
  unfold Machine.answerEventEnable
  split
  · exact (h.setLink _).respond _ _ _
  · exact h.respond _ _ _

end Port

/-! ### The commit lanes -/

theorem Entry.takenBy_of_sealed {e : Entry} (h : e.isSealed = true) (d : DieId) :
    ∃ o, (e.takenBy d).stage = .committing o (.lane d) := by
  cases hs : e.stage with
  | sealed o => exact ⟨o, by simp [Entry.takenBy, hs]⟩
  | _ => simp [Entry.isSealed, hs] at h

theorem Entry.returned_isCommitting (e : Entry) : e.returned.isCommitting = false := by
  cases h : e.stage <;> simp [Entry.returned, Entry.isCommitting, h]

section Lanes

variable {s : State} (h : SectorsAccounted s) {d : DieId}

include h

theorem SectorsAccounted.setLane {x : Lane} (holds : ∀ id, x.holds id → id < s.wmb.openCounter ∧
    ∀ e ∈ s.wmb.entries, e.openOrder = id → ∃ o, e.stage = .committing o (.lane d)) :
    SectorsAccounted (setLane d x s) := by
  obtain ⟨sets, work, scan⟩ := h
  refine ⟨{ sets with }, { work with lane := fun e id he => ?_ }, { scan with }⟩
  have he : ((s.lanes.set d x).get e).holds id := he
  by_cases hed : e = d
  · subst hed
    rw [PerDie.get_set_same] at he
    exact holds id he
  · rw [PerDie.get_set_other _ _ hed] at he
    exact work.lane e id he

theorem SectorsAccounted.idleLane : SectorsAccounted (Machine.setLane d .idle s) :=
  h.setLane fun id hid => absurd hid (Lane.holds_idle id)

/-- The entry that a lane holds changes hands or is returned: no other lane holds it. -/
theorem SectorsAccounted.updateEntry {id : Nat} {f : Entry → Entry}
    (same : ∀ e, (f e).line = e.line ∧ (f e).held = e.held ∧ (f e).openOrder = e.openOrder)
    (free : ∀ e ∈ s.wmb.entries, e.openOrder = id → ∀ x, ¬ (s.lanes.get x).holds id)
    (flag : ∀ e ∈ s.wmb.entries, e.openOrder = id → (f e).isCommitting = true →
      (mapEntry s e.sector).releasing = false) : SectorsAccounted (updateEntry id f s) := by
  refine h.setWmb (Nat.le_refl _) (fun e he hc => ?_) fun e he x hx => ?_
  · obtain ⟨y, hy, rfl⟩ := List.mem_map.mp he
    split at hc
    next hid =>
      rw [if_pos hid, Entry.sector_of_line (same y).1]
      exact flag y hy hid hc
    next hid =>
      rw [if_neg hid]
      exact h.2.1.committing y hy hc
  · obtain ⟨y, hy, rfl⟩ := List.mem_map.mp he
    split at hx
    next hid =>
      rw [(same y).2.2, hid] at hx
      exact absurd hx (free y hy hid x)
    next hid =>
      rw [if_neg hid]
      exact (h.2.1.lane x _ hx).2 y hy rfl

/-- The lane is IDLE and the entry it held is SEALED again (R16). -/
theorem SectorsAccounted.laneReturns {id : Nat} (hid : (s.lanes.get d).holds id) :
    SectorsAccounted (Machine.setLane d .idle (Machine.updateEntry id Entry.returned s)) := by
  obtain ⟨-, taken⟩ := h.2.1.lane d id hid
  refine (h.idleLane (d := d)).updateEntry Entry.returned_same (fun e he order x hx => ?_)
    fun e _ _ hc => ?_
  · by_cases hxd : x = d
    · subst hxd
      have hx : ((s.lanes.set x .idle).get x).holds id := hx
      rw [PerDie.get_set_same] at hx
      exact Lane.holds_idle id hx
    · have hx : ((s.lanes.set d .idle).get x).holds id := hx
      rw [PerDie.get_set_other _ _ hxd] at hx
      obtain ⟨o, stage⟩ := taken e he order
      obtain ⟨o', stage'⟩ := (h.2.1.lane x id hx).2 e he order
      rw [stage] at stage'
      injection stage' with _ who
      injection who with who
      exact hxd who.symm
  · rw [Entry.returned_isCommitting] at hc
    cases hc

theorem SectorsAccounted.laneCommitted (id : Nat) : SectorsAccounted (laneCommitted d id s) :=
  ((h.freeWhere _).countUp _ _).idleLane

theorem SectorsAccounted.laneLoses (e : Entry) (region : Fin 16) :
    SectorsAccounted (laneLoses d e region s) := ((h.discardWhere _).record _).idleLane

/-- A lane's entry is of a sector that is not releasing. -/
theorem SectorsAccounted.not_releasing_of_lane {id : Nat} (hid : (s.lanes.get d).holds id)
    {e : Entry} (he : entryOf s id = some e) : (mapEntry s e.sector).releasing = false := by
  have mem := List.mem_of_find?_eq_some he
  have order : e.openOrder = id := by simpa using List.find?_some he
  obtain ⟨o, stage⟩ := (h.2.1.lane d id hid).2 e mem order
  exact h.2.1.committing e mem (by simp [Entry.isCommitting, stage])

theorem SectorsAccounted.laneHandsOff {e : Entry} (hid : (s.lanes.get d).holds e.openOrder)
    (flag : (mapEntry s e.sector).releasing = false) : SectorsAccounted (laneHandsOff d e s) := by
  unfold Machine.laneHandsOff
  rw [setLane_requestReloc]
  exact (h.laneReturns hid).requestReloc flag .overwrite

theorem SectorsAccounted.laneTests (medium : LineData) :
    SectorsAccounted (laneTests d medium s) := by
  unfold Machine.laneTests
  split
  next id p hl =>
    have hid : (s.lanes.get d).holds id := by simp [hl]
    split
    next => exact h
    next e he =>
      have flag := h.not_releasing_of_lane hid he
      have order : e.openOrder = id := by simpa using List.find?_some he
      dsimp only
      split
      · split
        · exact h.laneCommitted id
        · refine (h.setLane fun x hx => ?_).issue (by decide) _
          obtain rfl := Lane.holds_programming.mp hx
          exact h.2.1.lane d _ hid
      · split
        · split
          · exact h.laneLoses e _
          · exact h.laneHandsOff (order ▸ hid) flag
        · exact h.laneHandsOff (order ▸ hid) flag
  all_goals exact h

theorem SectorsAccounted.laneReadTimeout : SectorsAccounted (laneReadTimeout d s) := by
  unfold Machine.laneReadTimeout
  split
  next id p hl => exact h.laneReturns (by simp [hl])
  all_goals exact h

/-- A sector is marked suspect and queued with FAILURE (R28, R70). -/
theorem SectorsAccounted.suspectAsks {l : Sector} (flag : (mapEntry s l).releasing = false) :
    SectorsAccounted (Machine.requestReloc l .failure
      (setMapEntry l { mapEntry s l with suspect := true } s)) := by
  refine SectorsAccounted.requestReloc (h.markEntry (by rfl) (by rfl) (.inl (by rfl))) ?_ .failure
  rw [mapEntry_setMapEntry_same]
  exact flag

theorem SectorsAccounted.laneProgramFails : SectorsAccounted (laneProgramFails d s) := by
  unfold Machine.laneProgramFails
  split
  next id p medium target hl =>
    have hid : (s.lanes.get d).holds id := by simp [hl]
    split
    · exact h
    next e he =>
      have flag := h.not_releasing_of_lane hid he
      dsimp only
      rw [setLane_record, setLane_requestReloc]
      exact ((h.laneReturns hid).suspectAsks flag).record _
  all_goals exact h

theorem SectorsAccounted.laneProgrammed (pass : Bool) :
    SectorsAccounted (laneProgrammed d pass s) := by
  unfold Machine.laneProgrammed
  split
  · split
    · exact h.laneCommitted _
    · exact h.laneProgramFails
  all_goals exact h

/-- The entry a lane takes is the one of its open order, and no lane holds it. -/
theorem SectorsAccounted.laneTakes (hw : WmbOrderly s.wmb) : SectorsAccounted (laneTakes d s) := by
  unfold Machine.laneTakes
  split
  · exact h
  next e he =>
    split
    · exact h
    next p hp =>
      obtain ⟨mem, candidate⟩ := List.mem_filter.mp (mem_of_oldestSealed he)
      have sealed : e.isSealed = true := by simp_all [isCandidate]
      have flag : (mapEntry s e.sector).releasing = false := by simp_all [isCandidate]
      obtain ⟨o, stage⟩ := Entry.takenBy_of_sealed sealed d
      have only {x : Entry} (hx : x ∈ s.wmb.entries) (order : x.openOrder = e.openOrder) : x = e :=
        hw.eq_of_openOrder hx mem order
      have taken : SectorsAccounted (Machine.updateEntry e.openOrder (Entry.takenBy d) s) := by
        refine h.updateEntry (Entry.takenBy_same d) (fun x hx order y hy => ?_)
          fun x hx order _ => ?_
        · obtain rfl := only hx order
          obtain ⟨o', stage'⟩ := (h.2.1.lane y _ hy).2 x hx rfl
          simp [Entry.isSealed, stage'] at sealed
        · rw [only hx order]
          exact flag
      refine (taken.setLane fun id hid => ?_).issue (by decide) _
      obtain rfl := Lane.holds_reading.mp hid
      refine ⟨hw.openBelow e mem, fun x hx order => ?_⟩
      obtain ⟨y, hy, rfl⟩ := List.mem_map.mp hx
      split at order
      next hid =>
        rw [if_pos hid, only hy hid]
        exact ⟨o, stage⟩
      next hid => exact absurd order hid

end Lanes

end Sys2Proof.Machine
end

section
/-!
PROOFS. Sector accounting through the erase engine (chapter 6).
-/

namespace Sys2Proof.Machine

open Sys2Proof

/-- The sector of a slot that enters IDLE is held nowhere else. -/
theorem SetsAgree.slotLeaves {s t : State} (h : SetsAgree s) {d : DieId} {i : SlotItems}
    (hi : (s.erase.slots.get d).items = some i) (bound : ∀ l, boundPhys t l = boundPhys s l)
    (target : t.reloc.engine.target = s.reloc.engine.target)
    (slots : t.erase.slots = s.erase.slots.set d .idle) : LeavesHolders i.phys s t := by
  have erasing : inSet s .erasing i.phys := ⟨d, i, hi, rfl⟩
  refine ⟨fun l q => ?_, fun q => ?_, fun e x => ?_⟩
  · rw [bound]
    refine ⟨fun hq => ⟨fun e => ?_, hq⟩, And.right⟩
    have := h.inSet_once erasing (m' := .mapped) ⟨l, e ▸ hq⟩
    cases this
  · rw [target]
    refine ⟨fun hq => ⟨fun e => ?_, hq⟩, And.right⟩
    have := h.inSet_once erasing (m' := .target) (e ▸ hq)
    cases this
  · rw [slots]
    by_cases he : e = d
    · subst he
      rw [PerDie.get_set_same, hi]
      constructor
      · exact fun hx => nomatch hx
      · rintro ⟨hne, hx⟩
        exact absurd (congrArg SlotItems.phys (Option.some.inj hx)) hne.symm
    · rw [PerDie.get_set_other _ _ he]
      refine ⟨fun hx => ⟨fun hp => he ?_, hx⟩, And.right⟩
      rw [← h.slotDie e x hx, hp, h.slotDie d i hi]

theorem mem_of_oldestQueued {s : State} {d : DieId} {r : EraseRecord}
    (hr : oldestQueued s d = some r) : r ∈ s.acct.eraseQueue ∧ dieOf r.phys = d :=
  ⟨List.mem_of_find?_eq_some hr, by simpa using List.find?_some hr⟩

section Slots

variable {s : State} (h : SectorsAccounted s) {d : DieId} {i : SlotItems}

include h

theorem SectorsAccounted.setErase {x : EraseEngine}
    (items : ∀ d, (x.slots.get d).items = (s.erase.slots.get d).items) :
    SectorsAccounted (s.setErase x) :=
  h.of_sets (h.1.congr rfl (fun _ => rfl) rfl items) rfl rfl rfl rfl rfl rfl rfl

theorem SectorsAccounted.setSlot {x : Slot} (items : x.items = (s.erase.slots.get d).items) :
    SectorsAccounted (setSlot d x s) := by
  refine h.setErase fun e => ?_
  by_cases he : e = d
  · subst he
    rw [← items]
    exact congrArg Slot.items (PerDie.get_set_same _ _ _)
  · exact congrArg Slot.items (PerDie.get_set_other _ _ he)

theorem SectorsAccounted.setPauseList (x : List Phys) :
    SectorsAccounted (s.setErase { s.erase with pauseList := x }) := h.setErase fun _ => rfl

theorem SectorsAccounted.leavePauseList (p : Phys) : SectorsAccounted (leavePauseList p s) :=
  h.setPauseList _

theorem SectorsAccounted.slotRetires (hi : (s.erase.slots.get d).items = some i)
    (reason : RetireReason) : SectorsAccounted (slotRetires d i reason s) :=
  (h.setSlot (d := d) (x := .retiring i reason) hi.symm).issue (by decide) _

theorem SectorsAccounted.erasePasses (hi : (s.erase.slots.get d).items = some i) :
    SectorsAccounted (erasePasses d i s) := by
  have started := (((h.countUp .erasesDone 1).leavePauseList i.phys).issue
    (who := .eraseSlot) (by decide) (.programTag i.phys (.count (nextCount i.count))))
  exact started.setSlot (d := d) (x := .counting i) hi.symm

theorem SectorsAccounted.eraseFails (hi : (s.erase.slots.get d).items = some i) :
    SectorsAccounted (eraseFails d i s) := by
  have recorded := h.record (.eraseFail i.phys)
  refine recorded.slotRetires ?_ .erase
  rw [record_eq]
  exact hi

theorem SectorsAccounted.clearDegraded : SectorsAccounted (clearDegraded s) := by
  unfold Machine.clearDegraded
  split
  · exact h.setPower _
  · exact h

/-! ### A slot's sector goes to another set -/

theorem SectorsAccounted.slotJoinsPool (hi : (s.erase.slots.get d).items = some i)
    (n : EraseCount) : SectorsAccounted (Machine.setSlot d .idle (joinPool i.phys n s)) := by
  refine h.of_sets ?_ rfl rfl rfl rfl rfl rfl rfl
  exact h.1.joinPool (h.1.slotLeaves hi (fun _ => rfl) rfl rfl)
    (h.1.unlisted (m := .erasing) ⟨d, i, hi, rfl⟩ (.inr (.inr rfl))) (n := n) rfl

theorem SectorsAccounted.slotRejoins (hi : (s.erase.slots.get d).items = some i) :
    SectorsAccounted (slotRejoins d i s) := by
  refine h.of_sets ?_ rfl rfl rfl rfl rfl rfl rfl
  exact h.1.joinQueue (h.1.slotLeaves hi (fun _ => rfl) rfl rfl)
    (h.1.unlisted (m := .erasing) ⟨d, i, hi, rfl⟩ (.inr (.inr rfl))) rfl

theorem SectorsAccounted.slotJoinsRetired (hi : (s.erase.slots.get d).items = some i)
    (reason : RetireReason) :
    SectorsAccounted (Machine.setSlot d .idle (joinRetired i.phys reason s)) := by
  refine h.of_sets ?_ rfl rfl rfl rfl rfl rfl rfl
  exact h.1.joinRetired (h.1.slotLeaves hi (fun _ => rfl) rfl rfl)
    (h.1.unlisted (m := .erasing) ⟨d, i, hi, rfl⟩ (.inr (.inr rfl))) (why := reason) rfl

theorem SectorsAccounted.recordUnless (pass : Bool) (b : RecordBody) :
    SectorsAccounted (if pass then s else Machine.record b s) := by
  split
  · exact h
  · exact h.record b

/-! ### The ends of the slot's operations -/

theorem SectorsAccounted.countEnds (pass : Bool) : SectorsAccounted (countEnds d pass s) := by
  unfold Machine.countEnds
  split
  next x hx =>
    have hi : (s.erase.slots.get d).items = some x := by rw [hx]; rfl
    split
    · exact (h.slotJoinsPool hi _).clearDegraded
    · refine (h.record (.programFail x.phys none)).slotRetires ?_ .tag
      rw [record_eq]
      exact hi
  all_goals exact h

theorem SectorsAccounted.slotRetireEnds (pass : Bool) :
    SectorsAccounted (slotRetireEnds d pass s) := by
  unfold Machine.slotRetireEnds
  split
  next x reason hx =>
    have hi : (s.erase.slots.get d).items = some x := by rw [hx]; rfl
    refine ((h.recordUnless pass _).leavePauseList x.phys).slotJoinsRetired ?_ reason
    split
    · exact hi
    · rw [record_eq]
      exact hi
  all_goals exact h

theorem SectorsAccounted.slotTimeout (op : DieOp) : SectorsAccounted (slotTimeout d op s) := by
  unfold Machine.slotTimeout
  split
  · split
    next x hx => exact h.eraseFails (by rw [hx]; rfl)
    all_goals exact h
  · exact h.countEnds false
  · exact h.slotRetireEnds false
  all_goals exact h

theorem SectorsAccounted.abandonReported : SectorsAccounted (abandonReported d s) := by
  unfold Machine.abandonReported
  split
  next x hx => exact h.slotRejoins (by rw [hx]; rfl)
  all_goals exact h

theorem SectorsAccounted.pauseTimeoutReported : SectorsAccounted (pauseTimeoutReported d s) := by
  unfold Machine.pauseTimeoutReported
  split
  next x hx =>
    have hi : (s.erase.slots.get d).items = some x := by rw [hx]; rfl
    split
    · exact h.slotRetires hi .erase
    · exact (h.setPauseList _).slotRejoins hi
  all_goals exact h

theorem SectorsAccounted.abandonErase : SectorsAccounted (abandonErase d s) := by
  unfold Machine.abandonErase
  split
  case h_1 | h_2 => exact h.dieReset (.inl rfl)
  case h_3 => exact h.setDieState (.inl rfl)
  case h_4 hst => exact h.setDieState (.inr (by rw [hst]; rfl))
  all_goals exact h

theorem SectorsAccounted.slotPowersDown : SectorsAccounted (slotPowersDown d s) := by
  unfold Machine.slotPowersDown
  split
  next x hx =>
    split
    · refine SectorsAccounted.slotRejoins (h.setDie ?_) (by exact hx ▸ rfl)
      rw [scannerOps_eq, scannerOps_eq]
      exact ((((List.filter_sublist (l := (s.dies.get d).waiting)).filter _).map _).append
        (List.Sublist.refl _)).subperm
    · exact h.abandonErase
  all_goals exact h

theorem SectorsAccounted.eraseEnded : SectorsAccounted (eraseEnded d s) := by
  unfold Machine.eraseEnded
  split
  · exact h.setDieState (.inl rfl)
  · exact h.setDieState (.inl rfl)
  all_goals exact h

/-- A queued sector's erase starts on the IDLE slot of its die (R101). -/
theorem SectorsAccounted.startErase {r : EraseRecord} (hr : r ∈ s.acct.eraseQueue)
    (hd : dieOf r.phys = d) (idle : s.erase.slots.get d = .idle) :
    SectorsAccounted (startErase d r s) := by
  have taken : SectorsAccounted (Machine.setSlot d
      (.erasing { phys := r.phys, count := r.count, urgent := belowLowWater s })
      (moveTo .erasing r.phys (s.setAcct { s.acct with
        eraseQueue := s.acct.eraseQueue.filter fun x => x.phys ≠ r.phys }))) := by
    refine h.of_sets ?_ rfl rfl rfl rfl rfl rfl rfl
    refine h.1.startErase hr hd (by rw [idle]; rfl) rfl (fun _ => rfl) rfl ?_ fun e he => ?_
    · exact ⟨{ phys := r.phys, count := r.count, urgent := belowLowWater s }, rfl,
        congrArg Slot.items (PerDie.get_set_same _ _ _)⟩
    · exact PerDie.get_set_other _ _ he
  exact taken.issue (by decide) _

end Slots

end Sys2Proof.Machine
end

section
/-!
PROOFS. Sector accounting through the relocation engine (chapter 5): the target choice, the
abandonment, the take, the claim, the fold and the copy.
-/

namespace Sys2Proof.Machine

open Sys2Proof

section Engine

variable {s : State} (h : SectorsAccounted s)

include h

/-- The engine changes its state: its target stays, and its job agrees with the map. -/
theorem SectorsAccounted.setEngine {e : Engine} (target : e.target = s.reloc.engine.target)
    (job : ∀ j, e.beforeSwitch = some j → boundPhys s j.sector = j.source ∧
      (mapEntry s j.sector).releasing = false ∧
      ∃ pending, (mapEntry s j.sector).reloc = .inFlight e.target pending) :
    SectorsAccounted (setEngine e s) := by
  obtain ⟨sets, work, scan⟩ := h
  exact ⟨sets.congr rfl (fun _ => rfl) target fun _ => rfl, { work with job := job },
    { scan with }⟩

/-- The engine goes on with the relocation it has in flight. -/
theorem SectorsAccounted.goesOn {e : Engine} {j j' : Job}
    (before : s.reloc.engine.beforeSwitch = some j) (after : e.beforeSwitch = some j')
    (same : j'.sector = j.sector ∧ j'.source = j.source)
    (target : e.target = s.reloc.engine.target) :
    SectorsAccounted (Machine.setEngine e s) := by
  refine h.setEngine target fun x hx => ?_
  obtain rfl := Option.some.inj (after.symm.trans hx)
  rw [same.1, same.2, target]
  exact h.2.1.job j before

theorem SectorsAccounted.engineIdle (target : s.reloc.engine.target = none) :
    SectorsAccounted (Machine.setEngine .idle s) :=
  h.setEngine target.symm fun _ hx => nomatch hx

end Engine

theorem pool_of_spareFor {r : RelocReason} {s : State} {p : Phys} (h : spareFor r s = some p) :
    ∃ rest, s.acct.pool = p :: rest := by
  unfold spareFor at h
  split at h
  case h_1 | h_3 | h_4 => cases h
  case h_2 q rest hq | h_5 q rest hq | h_6 q rest hq =>
    obtain rfl := Option.some.inj h
    exact ⟨_, hq⟩

/-- The job goes on with another target, or with none, and its sector's field tells so (R27). -/
theorem WorkAgrees.retarget {s t : State} (h : WorkAgrees s) {j j' : Job} {pending : Bool}
    (before : s.reloc.engine.beforeSwitch = some j) (after : t.reloc.engine.beforeSwitch = some j')
    (kept : j'.sector = j.sector ∧ j'.source = j.source)
    (map : t.map = Table.store MapEntry.unbacked s.map j.sector.val
      { mapEntry s j.sector with reloc := .inFlight t.reloc.engine.target pending })
    (queue : t.reloc.queue = s.reloc.queue) (wmb : t.wmb = s.wmb) (lanes : t.lanes = s.lanes)
    (release : t.release = s.release) : WorkAgrees t := by
  let e := { mapEntry s j.sector with reloc := .inFlight t.reloc.engine.target pending }
  have entry (l : Sector) : mapEntry t l = mapEntry (setMapEntry j.sector e s) l :=
    mapEntry_congr (s := setMapEntry j.sector e s) map l
  have bound (l : Sector) : boundPhys t l = boundPhys s l :=
    (boundPhys_congr (s := setMapEntry j.sector e s) map l).trans
      (boundPhys_setMapEntry (e := e) rfl l)
  have same : mapEntry t j.sector = e := by rw [entry, mapEntry_setMapEntry_same]
  have other {l : Sector} (hl : l ≠ j.sector) : mapEntry t l = mapEntry s l := by
    rw [entry, mapEntry_setMapEntry_other _ _ hl]
  have flag (l : Sector) : (mapEntry t l).releasing = (mapEntry s l).releasing := by
    by_cases hl : l = j.sector
    · rw [hl, same]
    · rw [other hl]
  obtain ⟨source, notReleasing, old, field⟩ := h.job j before
  constructor
  case job =>
    intro x hx
    obtain rfl := Option.some.inj (after.symm.trans hx)
    rw [kept.1, kept.2, bound, flag, same]
    exact ⟨source, notReleasing, pending, rfl⟩
  case queued =>
    intro r hr
    rw [queue] at hr
    have hne : r.sector ≠ j.sector := fun e => by
      have := (h.queued r hr).1
      rw [e, field] at this
      cases this
    rw [flag, other hne]
    exact h.queued r hr
  case queuedOnce => exact queue ▸ h.queuedOnce
  case release =>
    intro r hr
    rw [bound, flag]
    exact h.release r (release ▸ hr)
  case committing =>
    intro x hx hc
    rw [flag]
    exact h.committing x (wmb ▸ hx) hc
  case lane => simpa only [wmb, lanes] using h.lane

section Choice

variable {s : State} {j : Job} (h : SectorsAccounted (Machine.setEngine (.awaitingSpare j) s))

include h

/-- A relocation without a target is given up: its sector is queued anew or not (R91). -/
theorem SectorsAccounted.afterField :
    SectorsAccounted (Machine.setEngine .idle (afterField j.sector s)) := by
  obtain ⟨-, flag, pending, field⟩ := h.2.1.job j rfl
  have lost := (h.engineIdle rfl).setEntries_filter fun x => x ∉ lostEntries j.sector s
  by_cases again : asksAgain j.sector s = true
  · have queued := lost.enqueueTail (l := j.sector) (reason := .backing) (fun _ hx => nomatch hx)
      (fun _ hr => nomatch field.symm.trans hr) flag
    rw [afterField_of_again again, afterLoss_eq]
    exact queued.congr rfl rfl rfl rfl rfl rfl rfl rfl rfl
  · have dropped := lost.setField (l := j.sector) (f := .absent) (q := s.reloc.queue)
      (fun _ hx => nomatch hx)
      (fun r hr => .inl ⟨hr, h.not_queued (fun _ hq => nomatch field.symm.trans hq) hr⟩)
      h.2.1.queuedOnce
    rw [afterField_of_not_again again, afterLoss_eq]
    exact dropped.congr rfl rfl rfl rfl rfl rfl rfl rfl rfl

theorem SectorsAccounted.abandon (why : Option DegradedReason) :
    SectorsAccounted (abandon j why s) := by
  obtain ⟨p, x, l, e⟩ := abandon_shape j why s
  rw [e]
  exact ((h.afterField.setPower p).setHost x).setLink l

/-- A spare is taken as the target and claimed (R35, R81). -/
theorem SectorsAccounted.claimTarget {p : Phys} {rest : List Phys} (g : Gen)
    (hpool : s.acct.pool = p :: rest) : SectorsAccounted (claimTarget j p g s) := by
  obtain ⟨pending, -, claimed⟩ := claimTarget_eq (j := j) (g := g) hpool
  obtain rfl : s.acct.pool.erase p = rest := by rw [hpool, List.erase_cons_head]
  obtain ⟨sets, work, scan⟩ := h
  let u : State := { s with
    map := Table.store MapEntry.unbacked s.map j.sector.val
      { mapEntry s j.sector with reloc := .inFlight (some p) pending }
    acct := { s.acct with
      recs := Table.put s.acct.recs p.val ⟨.target, knownCount s p⟩
      pool := s.acct.pool.erase p }
    reloc := { s.reloc with engine := .claiming j p g false, generation := some (g + 1) } }
  have bound (l : Sector) : boundPhys u l = boundPhys s l :=
    boundPhys_setMapEntry (s := s) (l := j.sector)
      (e := { mapEntry s j.sector with reloc := .inFlight (some p) pending }) rfl l
  have front : p ∈ s.acct.pool := by
    rw [hpool]
    exact List.mem_cons_self
  have taken : SetsAgree u := sets.claim rfl front rfl bound rfl rfl
  have held : WorkAgrees u := work.retarget rfl rfl ⟨rfl, rfl⟩ rfl rfl rfl rfl rfl
  have claims : SectorsAccounted u := ⟨taken, held, { scan with }⟩
  rw [claimed]
  exact (claims.issue (who := .relocation) (by decide) (.programTag p (.claim j.sector g))).congr
    rfl rfl rfl rfl rfl rfl rfl rfl rfl

theorem SectorsAccounted.chooseTarget : SectorsAccounted (chooseTarget j s) := by
  unfold Machine.chooseTarget
  split
  · exact h
  next g hg =>
    split
    · exact h.abandon _
    · split
      next p hp =>
        obtain ⟨rest, hpool⟩ := pool_of_spareFor hp
        exact h.claimTarget g hpool
      next =>
        split
        · exact h.abandon _
        · exact h

end Choice

section Flight

variable {s : State} (h : SectorsAccounted s)

include h

/-- The head of the queue flies (R80). -/
theorem SectorsAccounted.relocationTakes (idle : s.reloc.engine = .idle) :
    SectorsAccounted (relocationTakes s) := by
  unfold Machine.relocationTakes
  split
  · exact h
  next r rest hq =>
    have mem : r ∈ s.reloc.queue := hq ▸ List.mem_cons_self
    obtain ⟨-, flag⟩ := h.2.1.queued r mem
    have once : r.sector ∉ rest.map (·.sector) ∧ (rest.map (·.sector)).Nodup := by
      have := h.2.1.queuedOnce
      rw [hq] at this
      exact List.nodup_cons.mp this
    have flying := h.setField (l := r.sector) (f := .inFlight none false) (q := rest)
      (fun j hj => by rw [idle] at hj; cases hj)
      (fun x hx => .inl ⟨hq ▸ List.mem_cons_of_mem _ hx,
        fun e => once.1 (e ▸ List.mem_map_of_mem hx)⟩) once.2
    refine SectorsAccounted.chooseTarget
      (flying.setEngine (by show none = s.reloc.engine.target; rw [idle]; rfl) fun j hj => ?_)
    obtain rfl := Option.some.inj hj
    refine ⟨boundPhys_setMapEntry (s := s.setReloc { s.reloc with queue := rest })
      (e := { mapEntry s r.sector with reloc := .inFlight none false }) rfl _, ?_⟩
    rw [mapEntry_setMapEntry_same]
    exact ⟨flag, false, rfl⟩

/-! ### The claim, the fold and the copy -/

theorem SectorsAccounted.fold {l : Sector} (flag : (mapEntry s l).releasing = false) :
    SectorsAccounted (fold l s) := by
  refine h.setWmb (Nat.le_refl _) (fun e he hc => ?_) fun e he d hd => ?_
  · obtain ⟨x, hx, rfl⟩ := List.mem_map.mp he
    rw [Entry.sector_of_line (Entry.folded_same l x).1]
    by_cases hx' : x.sector = l
    · rw [hx', flag]
    · refine h.2.1.committing x hx ?_
      cases hs : x.stage <;> simp [Entry.folded, Entry.isCommitting, hs, hx'] at hc ⊢
  · obtain ⟨x, hx, rfl⟩ := List.mem_map.mp he
    rw [(Entry.folded_same l x).2.2] at hd
    obtain ⟨o, stage⟩ := (h.2.1.lane d _ hd).2 x hx rfl
    exact ⟨o, by simp [Entry.folded, stage]⟩

section Copy

variable {j : Job} {t : Phys} (before : s.reloc.engine.beforeSwitch = some j)
  (target : s.reloc.engine.target = some t)

include before target

theorem SectorsAccounted.issueSeal (g : Gen) : SectorsAccounted (issueSeal j t g s) :=
  (h.goesOn (e := .sealing j t g) before rfl ⟨rfl, rfl⟩ target.symm).issue (by decide) _

theorem SectorsAccounted.issueCopy (g : Gen) (pos : Pos) (line : LineData) :
    SectorsAccounted (issueCopy j t g pos line s) :=
  (h.goesOn (e := .copying j t g pos) before rfl ⟨rfl, rfl⟩ target.symm).issue (by decide) _

theorem SectorsAccounted.copyFrom (g : Gen) (pos : Nat) :
    SectorsAccounted (copyFrom j t g pos s) := by
  unfold Machine.copyFrom
  split
  next hpos =>
    split
    · exact (h.goesOn (e := .copying j t g ⟨pos, hpos⟩) before rfl ⟨rfl, rfl⟩ target.symm).issue
        (by decide) _
    · split
      · exact h.issueCopy before target g _ _
      · exact h.issueSeal before target g
  next => exact h.issueSeal before target g

theorem SectorsAccounted.foldAndCopy (g : Gen) : SectorsAccounted (foldAndCopy j t g s) :=
  (h.fold (h.2.1.job j before).2.1).copyFrom before target g 0

theorem SectorsAccounted.targetFails (g : Gen) (line : Option LineNo) (why : RetireReason) :
    SectorsAccounted (targetFails j t g line why s) := by
  unfold Machine.targetFails
  rw [setEngine_record]
  have retiring := h.goesOn before
    (e := .retiringTarget { j with failedTargets := j.failedTargets + 1 } t g why) rfl ⟨rfl, rfl⟩
    target.symm
  exact (retiring.record _).issue (by decide) _

end Copy

theorem SectorsAccounted.claimEnds (pass : Bool) : SectorsAccounted (claimEnds pass s) := by
  unfold Machine.claimEnds
  split
  next j t g waits he =>
    have before : s.reloc.engine.beforeSwitch = some j := by rw [he]; rfl
    have target : s.reloc.engine.target = some t := by rw [he]; rfl
    split
    · split
      · exact h.copyFrom before target g 0
      · split
        · exact h.goesOn (e := .claiming j t g true) before rfl ⟨rfl, rfl⟩ target.symm
        · exact h.foldAndCopy before target g
    · exact h.targetFails before target g _ _
  all_goals exact h

theorem SectorsAccounted.copyLineReturns (medium : LineData) :
    SectorsAccounted (copyLineReturns medium s) := by
  unfold Machine.copyLineReturns
  split
  next j t g pos he =>
    have before : s.reloc.engine.beforeSwitch = some j := by rw [he]; rfl
    have target : s.reloc.engine.target = some t := by rw [he]; rfl
    dsimp only
    split
    · exact h.copyFrom before target g _
    · exact h.issueCopy before target g _ _
  all_goals exact h

theorem SectorsAccounted.copyProgramEnds (pass : Bool) :
    SectorsAccounted (copyProgramEnds pass s) := by
  unfold Machine.copyProgramEnds
  split
  next j t g pos he =>
    have before : s.reloc.engine.beforeSwitch = some j := by rw [he]; rfl
    have target : s.reloc.engine.target = some t := by rw [he]; rfl
    split
    · exact h.copyFrom before target g _
    · exact h.targetFails before target g _ _
  all_goals exact h

theorem SectorsAccounted.sourceRetireEnds (pass : Bool) :
    SectorsAccounted (sourceRetireEnds pass s) := by
  unfold Machine.sourceRetireEnds
  split
  next j p he =>
    refine (h.recordUnless pass _).engineIdle ?_
    split
    · rw [he]; rfl
    · rw [record_eq]
      exact congrArg Engine.target he
  all_goals exact h

theorem SectorsAccounted.spareReported : SectorsAccounted (spareReported s) := by
  unfold Machine.spareReported
  split
  next j he =>
    split
    · exact SectorsAccounted.chooseTarget (by rwa [setEngine_same he])
    · exact h
  all_goals exact h

theorem SectorsAccounted.relocationResumes : SectorsAccounted (relocationResumes s) := by
  unfold Machine.relocationResumes
  split
  next j t g he =>
    exact h.foldAndCopy (by rw [he]; rfl) (by rw [he]; rfl) g
  next j he =>
    split
    · exact SectorsAccounted.chooseTarget (by rwa [setEngine_same he])
    · exact h
  all_goals exact h

end Flight

end Sys2Proof.Machine
end

section
/-!
PROOFS. Sector accounting where a sector's binding changes: the failed target, the switch (R87) and
the release of a sector (section 2.3).
-/

namespace Sys2Proof.Machine

open Sys2Proof

/-! ### A failed target -/

/-- The target that the engine gives up is held nowhere else. -/
theorem SetsAgree.targetLeaves {s t : State} (h : SetsAgree s) {p : Phys}
    (target : s.reloc.engine.target = some p) (bound : ∀ l, boundPhys t l = boundPhys s l)
    (left : t.reloc.engine.target = none) (slots : t.erase.slots = s.erase.slots) :
    LeavesHolders p s t := by
  have hset : inSet s .target p := target
  refine ⟨fun l q => ?_, fun q => ?_, fun d i => ?_⟩
  · rw [bound]
    refine ⟨fun hq => ⟨fun e => ?_, hq⟩, And.right⟩
    have := h.inSet_once hset (m' := .mapped) ⟨l, e ▸ hq⟩
    cases this
  · rw [left, target]
    constructor
    · exact fun hq => nomatch hq
    · rintro ⟨hne, hq⟩
      exact absurd (Option.some.inj hq).symm hne
  · rw [slots]
    refine ⟨fun hi => ⟨fun e => ?_, hi⟩, And.right⟩
    have := h.inSet_once hset (m' := .erasing) ⟨d, i, hi, e⟩
    cases this

section Engine

variable {s : State} (h : SectorsAccounted s)

include h

theorem SectorsAccounted.targetRetired {j : Job} {p : Phys}
    (before : s.reloc.engine.beforeSwitch = some j) (target : s.reloc.engine.target = some p)
    (why : RetireReason) : SectorsAccounted (Machine.setEngine (.awaitingSpare j)
      (setFieldTarget j.sector none (joinRetired p why s))) := by
  obtain ⟨pending, field, -⟩ := setFieldTarget_eq j.sector none (joinRetired p why s)
  rw [field, mapEntry_congr (s := s) (t := Machine.joinRetired p why s) rfl]
  obtain ⟨sets, work, scan⟩ := h
  refine ⟨?_, ?_, { scan with }⟩
  · refine sets.joinRetired (sets.targetLeaves target (fun l => ?_) rfl rfl)
      (sets.unlisted (m := .target) target (.inr (.inl rfl))) (why := why) rfl
    exact boundPhys_setMapEntry (s := joinRetired p why s)
      (e := { mapEntry s j.sector with reloc := .inFlight none pending }) rfl l
  · exact work.retarget (j' := j) (pending := pending) before rfl ⟨rfl, rfl⟩ rfl rfl rfl rfl rfl

theorem SectorsAccounted.targetRetireEnds (pass : Bool) :
    SectorsAccounted (targetRetireEnds pass s) := by
  unfold Machine.targetRetireEnds
  split
  next j p g why he =>
    have recorded := h.recordUnless pass (.programFail p none)
    have engine : (if pass then s else Machine.record (.programFail p none) s).reloc.engine =
        .retiringTarget j p g why := by
      split
      · exact he
      · rw [record_eq]
        exact he
    have retired := recorded.targetRetired (j := j) (p := p) (by rw [engine]; rfl)
      (by rw [engine]; rfl) why
    dsimp only
    split
    · exact retired.abandon none
    · split
      · exact retired
      · exact retired.chooseTarget
  all_goals exact h

end Engine

/-! ### A sector loses its binding -/

theorem SetsAgree.bindingLeaves {s t : State} (h : SetsAgree s) {l : Sector} {p : Phys}
    (was : boundPhys s l = some p)
    (bound : ∀ x, boundPhys t x = if x = l then none else boundPhys s x)
    (target : t.reloc.engine.target = s.reloc.engine.target)
    (slots : t.erase.slots = s.erase.slots) : LeavesHolders p s t := by
  have hset : inSet s .mapped p := ⟨l, was⟩
  refine ⟨fun x q => ?_, fun q => ?_, fun d i => ?_⟩
  · rw [bound]
    by_cases hx : x = l
    · subst hx
      rw [if_pos rfl, was]
      constructor
      · exact fun hq => nomatch hq
      · rintro ⟨hne, hq⟩
        exact absurd (Option.some.inj hq).symm hne
    · rw [if_neg hx]
      exact ⟨fun hq => ⟨fun e => hx (h.boundOnce x l p (e ▸ hq) was), hq⟩, And.right⟩
  · rw [target]
    refine ⟨fun hq => ⟨fun e => ?_, hq⟩, And.right⟩
    have := h.inSet_once hset (m' := .target) (e ▸ hq)
    cases this
  · rw [slots]
    refine ⟨fun hi => ⟨fun e => ?_, hi⟩, And.right⟩
    have := h.inSet_once hset (m' := .erasing) ⟨d, i, hi, e⟩
    cases this

theorem boundPhys_rebound {s : State} {l : Sector} {e : MapEntry} (x : Sector) :
    boundPhys (setMapEntry l e s) x =
      if x = l then e.binding.map (·.phys) else boundPhys s x := by
  by_cases hx : x = l
  · rw [if_pos hx, hx, boundPhys, mapEntry_setMapEntry_same]
  · rw [if_neg hx, boundPhys, mapEntry_setMapEntry_other _ _ hx, boundPhys]

/-! ### The switch -/

theorem membershipOf_sourceLeaves (p : Phys) (suspect : Bool) (s : State) (q : Phys) :
    membershipOf (sourceLeaves (some p) suspect s) q =
      if q = p then some (if suspect then .retired else .queuedForErase) else membershipOf s q := by
  cases suspect
  · exact membershipOf_moveTo s .queuedForErase p q
  · exact membershipOf_moveTo s .retired p q

theorem knownCount_sourceLeaves (p : Phys) (suspect : Bool) (s : State) (q : Phys) :
    knownCount (sourceLeaves (some p) suspect s) q = knownCount s q := by
  cases suspect
  · exact knownCount_moveTo .queuedForErase p q s
  · exact knownCount_moveTo .retired p q s

/-- The lists that the source joins do not depend on the record of the target. -/
theorem sourceLeaves_lists (p : Phys) (suspect : Bool) {s t : State}
    (lists : t.acct.pool = s.acct.pool ∧ t.acct.eraseQueue = s.acct.eraseQueue ∧
      t.acct.retired = s.acct.retired) (known : knownCount t p = knownCount s p) :
    (sourceLeaves (some p) suspect t).acct.pool = (sourceLeaves (some p) suspect s).acct.pool ∧
      (sourceLeaves (some p) suspect t).acct.eraseQueue =
        (sourceLeaves (some p) suspect s).acct.eraseQueue ∧
      (sourceLeaves (some p) suspect t).acct.retired =
        (sourceLeaves (some p) suspect s).acct.retired := by
  obtain ⟨pool, queue, retired⟩ := lists
  cases suspect
  · refine ⟨pool, ?_, retired⟩
    show t.acct.eraseQueue ++ [⟨p, knownCount t p⟩] = s.acct.eraseQueue ++ [⟨p, knownCount s p⟩]
    rw [queue, known]
  · refine ⟨pool, queue, ?_⟩
    show t.acct.retired ++ [⟨p, .program⟩] = s.acct.retired ++ [⟨p, .program⟩]
    rw [retired]

/-- The state of the sets between the two halves of a switch: the source has left and the sector has
no binding. -/
def sourceLeft (l : Sector) (p : Phys) (suspect : Bool) (s : State) : State :=
  setMapEntry l { mapEntry s l with binding := none } (sourceLeaves (some p) suspect s)

theorem SetsAgree.sourceLeft {s : State} (h : SetsAgree s) {l : Sector} {p : Phys}
    (was : boundPhys s l = some p) (suspect : Bool) : SetsAgree (sourceLeft l p suspect s) := by
  have unlisted := h.unlisted (m := .mapped) ⟨l, was⟩ (.inl rfl)
  cases suspect
  · exact h.joinQueue (h.bindingLeaves was (boundPhys_rebound (s := joinEraseQueue p s)) rfl rfl)
      unlisted rfl
  · exact h.joinRetired (h.bindingLeaves was
      (boundPhys_rebound (s := Machine.joinRetired p .program s)) rfl rfl) unlisted
      (why := .program) rfl

/-- The sets after a switch (R87): the source has left, and the target is MAPPED. -/
theorem SetsAgree.switched {s t : State} (h : SetsAgree s) {l : Sector} {p : Phys}
    {source : Option Phys} (was : boundPhys s l = source) (target : s.reloc.engine.target = some p)
    (suspect : Bool) (acct : t.acct = (sourceLeaves source suspect (moveTo .mapped p s)).acct)
    (bound : ∀ x, boundPhys t x = if x = l then some p else boundPhys s x)
    (released : t.reloc.engine.target = none) (slots : t.erase.slots = s.erase.slots) :
    SetsAgree t := by
  have memberOf (u : State) (hu : t.acct = u.acct) (q : Phys) :
      membershipOf t q = membershipOf u q := by rw [membershipOf, hu, membershipOf]
  have counted (q : Phys) : knownCount (moveTo .mapped p s) q = knownCount s q :=
    knownCount_moveTo .mapped p q s
  cases source with
  | none =>
    refine h.bind target was (fun q => ?_) (fun q => ?_) ?_ bound released slots
    · rw [memberOf _ acct]
      exact membershipOf_moveTo s .mapped p q
    · rw [knownCount_of_acct acct]
      exact counted q
    · rw [acct]
      exact ⟨rfl, rfl, rfl⟩
  | some old =>
    have left := h.sourceLeft was suspect
    have ne : old ≠ p := fun e => by
      have := h.inSet_once (m := .mapped) (m' := .target) ⟨l, e ▸ was⟩ target
      cases this
    obtain ⟨a, k, shape⟩ := sourceLeaves_shape (some old) suspect s
    have blocks : (Machine.sourceLeft l old suspect s).reloc = s.reloc ∧
        (Machine.sourceLeft l old suspect s).erase = s.erase ∧
        (sourceLeaves (some old) suspect s).map = s.map := by
      unfold Machine.sourceLeft
      rw [shape]
      exact ⟨rfl, rfl, rfl⟩
    obtain ⟨reloc, erase, map⟩ := blocks
    have unbound (x : Sector) : boundPhys (Machine.sourceLeft l old suspect s) x =
        if x = l then none else boundPhys s x := by
      rw [Machine.sourceLeft, boundPhys_rebound, boundPhys_congr map]
      rfl
    have leftAcct : (Machine.sourceLeft l old suspect s).acct =
        (sourceLeaves (some old) suspect s).acct := rfl
    refine left.bind (l := l) (by rw [reloc]; exact target) (by rw [unbound, if_pos rfl])
      (fun q => ?_) (fun q => ?_) ?_ (fun x => ?_) released (by rw [erase]; exact slots)
    · have before : membershipOf (Machine.sourceLeft l old suspect s) q =
          membershipOf (sourceLeaves (some old) suspect s) q := rfl
      rw [memberOf _ acct, before, membershipOf_sourceLeaves, membershipOf_sourceLeaves,
        membershipOf_moveTo]
      by_cases hq : q = old
      · subst hq
        rw [if_pos rfl, if_neg ne, if_pos rfl]
      · rw [if_neg hq, if_neg hq]
    · rw [knownCount_of_acct acct, knownCount_of_acct leftAcct, knownCount_sourceLeaves,
        knownCount_sourceLeaves, counted]
    · rw [acct, leftAcct]
      exact sourceLeaves_lists old suspect ⟨rfl, rfl, rfl⟩ (counted old)
    · rw [bound, unbound]
      split <;> rfl

/-! ### What a release leaves before it begins -/

theorem mapEntry_dequeueReloc_absent {l : Sector} {s : State}
    (free : ∀ p b, (mapEntry s l).reloc ≠ .inFlight p b) :
    (mapEntry (dequeueReloc l s) l).reloc = .absent := by
  unfold dequeueReloc
  split
  next r hf => rw [mapEntry_setMapEntry_same]
  next hf => exact hf
  next p b hf => exact absurd hf (free p b)

theorem dequeueReloc_wmb (l : Sector) (s : State) : (dequeueReloc l s).wmb = s.wmb := by
  unfold dequeueReloc
  split <;> rfl

theorem discardStaged_left (l : Sector) (s : State) :
    (discardStaged l s).map = s.map ∧
      ∀ e ∈ (discardStaged l s).wmb.entries, e ∈ s.wmb.entries := by
  unfold discardStaged
  dsimp only
  split
  · exact ⟨rfl, fun e he => (List.mem_filter.mp he).1⟩
  · rw [record_eq]
    exact ⟨rfl, fun e he => (List.mem_filter.mp he).1⟩

section Switch

variable {s : State} (h : SectorsAccounted s)

include h

theorem SectorsAccounted.afterSwitch {j : Job} {t : Phys} (g : Gen)
    (before : s.reloc.engine.beforeSwitch = some j) (target : s.reloc.engine.target = some t)
    (suspect : Bool) {next : Engine} (switched : next.beforeSwitch = none ∧ next.target = none) :
    SectorsAccounted (afterSwitch j t g s (sourceLeaves j.source suspect (moveTo .mapped t s))
      next) := by
  obtain ⟨a, k, shape⟩ := sourceLeaves_shape j.source suspect (moveTo .mapped t s)
  have acct : (sourceLeaves j.source suspect (moveTo .mapped t s)).acct = a := by rw [shape]; rfl
  obtain ⟨sets, work, scan⟩ := h
  obtain ⟨source, flag, old, field⟩ := work.job j before
  rw [shape, Machine.afterSwitch]
  let e : MapEntry :=
    { mapEntry s j.sector with binding := some ⟨t, g⟩, suspect := false, reloc := .absent }
  have same : mapEntry (setMapEntry j.sector e s) j.sector = e := mapEntry_setMapEntry_same _ _ _
  have other {l : Sector} (hl : l ≠ j.sector) :
      mapEntry (setMapEntry j.sector e s) l = mapEntry s l := mapEntry_setMapEntry_other _ _ hl
  have kept (l : Sector) : (mapEntry (setMapEntry j.sector e s) l).releasing =
      (mapEntry s l).releasing := by
    by_cases hl : l = j.sector
    · rw [hl, same]
    · rw [other hl]
  have bound (l : Sector) := boundPhys_rebound (s := s) (l := j.sector) (e := e) l
  refine ⟨?_, ?_, { scan with }⟩
  · exact sets.switched source target suspect acct.symm bound switched.2 rfl
  · constructor
    case job => exact fun x hx => nomatch switched.1.symm.trans hx
    case queued =>
      intro r hr
      have hne : r.sector ≠ j.sector := fun e => by
        have := (work.queued r hr).1
        rw [e, field] at this
        cases this
      have := work.queued r hr
      rw [← other hne] at this
      exact this
    case queuedOnce => exact work.queuedOnce
    case release =>
      intro r hr
      obtain ⟨hb, hrel⟩ := work.release r hr
      have hne : r.sector ≠ j.sector := fun e => by
        rw [e, flag] at hrel
        cases hrel
      refine ⟨(bound r.sector).trans ?_, (kept r.sector).trans hrel⟩
      rw [if_neg hne]
      exact hb
    case committing =>
      intro x hx hc
      exact (kept x.sector).trans (work.committing x (List.mem_filter.mp hx).1 hc)
    case lane =>
      intro d id hd
      obtain ⟨below, held⟩ := work.lane d id hd
      exact ⟨below, fun x hx => held x (List.mem_filter.mp hx).1⟩

theorem SectorsAccounted.switch {j : Job} {t : Phys} (g : Gen)
    (before : s.reloc.engine.beforeSwitch = some j) (target : s.reloc.engine.target = some t) :
    SectorsAccounted (switch j t g s) := by
  have after (next : Engine) := h.afterSwitch g before target (mapEntry s j.sector).suspect
    (next := next)
  cases hsource : j.source with
  | none =>
    rw [switch_to_idle j t g s (.inl hsource)]
    exact after .idle ⟨rfl, rfl⟩
  | some old =>
    cases hsuspect : (mapEntry s j.sector).suspect with
    | false =>
      rw [switch_to_idle j t g s (.inr hsuspect)]
      exact after .idle ⟨rfl, rfl⟩
    | true =>
      rw [switch_to_retiring j t g s hsource hsuspect]
      exact (after (.retiringSource j old) ⟨rfl, rfl⟩).issue (by decide) _

theorem SectorsAccounted.sealEnds (pass : Bool) : SectorsAccounted (sealEnds pass s) := by
  unfold Machine.sealEnds
  split
  next j t g he =>
    have before : s.reloc.engine.beforeSwitch = some j := by rw [he]; rfl
    have target : s.reloc.engine.target = some t := by rw [he]; rfl
    split
    · exact h.switch g before target
    · exact h.targetFails before target g _ _
  all_goals exact h

theorem SectorsAccounted.relocationTimeout (op : DieOp) :
    SectorsAccounted (relocationTimeout op s) := by
  unfold Machine.relocationTimeout
  split
  · exact h.issue (by decide) _
  · exact h.copyProgramEnds false
  · exact h.claimEnds false
  · exact h.sealEnds false
  · exact (h.sourceRetireEnds false).targetRetireEnds false
  all_goals exact h

/-! ### The release -/

/-- The released sector is UNBACKED, its flags clear (R30, R31). -/
theorem SectorsAccounted.unbound {r : Release} (hr : s.release = some r) (retired : Bool) :
    SectorsAccounted ((setMapEntry r.sector
      { mapEntry s r.sector with binding := none, releasing := false, suspect := false }
      (if retired then joinRetired r.phys .tag s else joinEraseQueue r.phys s)).setRelease
        none) := by
  obtain ⟨sets, work, scan⟩ := h
  obtain ⟨was, releasing⟩ := work.release r hr
  let e : MapEntry :=
    { mapEntry s r.sector with binding := none, releasing := false, suspect := false }
  have bound (l : Sector) := boundPhys_rebound (s := s) (l := r.sector) (e := e) l
  have unlisted := sets.unlisted (m := .mapped) ⟨r.sector, was⟩ (.inl rfl)
  have other {l : Sector} (hl : l ≠ r.sector) :
      mapEntry (setMapEntry r.sector e s) l = mapEntry s l := mapEntry_setMapEntry_other _ _ hl
  have differ {l : Sector} (flag : (mapEntry s l).releasing = false) : l ≠ r.sector := fun x => by
    rw [x, releasing] at flag
    cases flag
  have freed : WorkAgrees ((setMapEntry r.sector e s).setRelease none) := by
    constructor
    case job =>
      intro j hj
      obtain ⟨source, flag, field⟩ := work.job j hj
      have hne := differ flag
      refine ⟨(bound j.sector).trans ?_, ?_⟩
      · rw [if_neg hne]
        exact source
      · rw [← other hne] at flag field
        exact ⟨flag, field⟩
    case queued =>
      intro x hx
      have queued := work.queued x hx
      rw [← other (differ queued.2)] at queued
      exact queued
    case queuedOnce => exact work.queuedOnce
    case release => exact fun x hx => nomatch hx
    case committing =>
      intro x hx hc
      have flag := work.committing x hx hc
      rw [← other (differ flag)] at flag
      exact flag
    case lane => exact work.lane
  cases retired
  · refine ⟨?_, freed.congr rfl rfl rfl rfl rfl, { scan with }⟩
    exact sets.joinQueue (sets.bindingLeaves was bound rfl rfl) unlisted rfl
  · refine ⟨?_, freed.congr rfl rfl rfl rfl rfl, { scan with }⟩
    exact sets.joinRetired (sets.bindingLeaves was bound rfl rfl) unlisted (why := .tag) rfl

theorem SectorsAccounted.queueStaged {l : Sector} (flag : (mapEntry s l).releasing = false) :
    SectorsAccounted (queueStaged l s) := by
  unfold Machine.queueStaged
  split
  · exact h.requestReloc flag .backing
  · exact h

theorem SectorsAccounted.releaseEnds {r : Release} (hr : s.release = some r) (retired : Bool) :
    SectorsAccounted (releaseEnds r
      (if retired then joinRetired r.phys .tag s else joinEraseQueue r.phys s)) := by
  have map : (if retired then joinRetired r.phys .tag s else joinEraseQueue r.phys s).map =
      s.map := by cases retired <;> rfl
  unfold Machine.releaseEnds
  dsimp only
  rw [mapEntry_congr map]
  refine (h.unbound hr retired).longDone.queueStaged ?_
  rw [longDone_eq]
  exact congrArg MapEntry.releasing (mapEntry_setMapEntry_same r.sector
    { mapEntry s r.sector with binding := none, releasing := false, suspect := false } _)

theorem SectorsAccounted.releaseMarkEnds (pass : Bool) :
    SectorsAccounted (releaseMarkEnds pass s) := by
  unfold Machine.releaseMarkEnds
  split
  next r hr =>
    split
    · exact h
    · split
      · exact h.releaseEnds hr false
      · refine SectorsAccounted.issue ?_ (by decide) _
        have recorded := h.record (.programFail r.phys none)
        rw [record_eq] at recorded ⊢
        obtain ⟨sets, work, scan⟩ := recorded
        refine ⟨{ sets with }, { work with release := fun x hx => ?_ }, { scan with }⟩
        obtain rfl := Option.some.inj hx
        exact h.2.1.release r hr
  next => exact h

theorem SectorsAccounted.releaseRetireEnds (pass : Bool) :
    SectorsAccounted (releaseRetireEnds pass s) := by
  unfold Machine.releaseRetireEnds
  split
  next r hr =>
    split
    · refine (h.recordUnless pass (.programFail r.phys none)).releaseEnds ?_ true
      split
      · exact hr
      · rw [record_eq]
        exact hr
    · exact h
  next => exact h

theorem SectorsAccounted.releaseTimeout (op : DieOp) : SectorsAccounted (releaseTimeout op s) := by
  unfold Machine.releaseTimeout
  split
  · exact h.releaseMarkEnds false
  · exact h.releaseRetireEnds false
  all_goals exact h

/-! ### RELEASE SECTOR -/

theorem SectorsAccounted.dequeueReloc (l : Sector) : SectorsAccounted (dequeueReloc l s) := by
  unfold Machine.dequeueReloc
  split
  next r hf =>
    refine h.setField (h.not_relocated (by simp [hf])) (fun x hx => .inl ?_)
      (h.2.1.queuedOnce.sublist (List.filter_sublist.map _))
    simpa using List.mem_filter.mp hx
  all_goals exact h

theorem SectorsAccounted.discardStaged (l : Sector) : SectorsAccounted (discardStaged l s) := by
  have discarded := h.discardWhere fun e => e.sector == l && !e.isCommitting
  unfold Machine.discardStaged
  dsimp only
  split
  · exact discarded
  · exact discarded.record _

/-- A release begins on a sector without a record in the queue, a relocation or an entry at work. -/
theorem SectorsAccounted.startRelease {l : Sector} {b : Binding}
    (binding : (mapEntry s l).binding = some b) (field : (mapEntry s l).reloc = .absent)
    (free : ∀ e ∈ s.wmb.entries, e.sector = l → e.isCommitting = false) :
    SectorsAccounted (startRelease l b s) := by
  refine SectorsAccounted.issue ?_ (by decide) _
  have notQueued {r : RelocRecord} (hr : r ∈ s.reloc.queue) : r.sector ≠ l :=
    h.not_queued (by simp [field]) hr
  have notFlying := h.not_relocated (l := l) (by simp [field])
  obtain ⟨sets, work, scan⟩ := h
  let e : MapEntry := { mapEntry s l with releasing := true }
  have bound (x : Sector) : boundPhys (setMapEntry l e s) x = boundPhys s x :=
    boundPhys_setMapEntry (e := e) rfl x
  have same : mapEntry (setMapEntry l e s) l = e := mapEntry_setMapEntry_same _ _ _
  have other {x : Sector} (hx : x ≠ l) : mapEntry (setMapEntry l e s) x = mapEntry s x :=
    mapEntry_setMapEntry_other _ _ hx
  refine ⟨sets.congr rfl bound rfl fun _ => rfl, ?_, { scan with }⟩
  constructor
  case job =>
    intro j hj
    obtain ⟨source, rest⟩ := work.job j hj
    rw [← other (notFlying j hj)] at rest
    exact ⟨(bound j.sector).trans source, rest⟩
  case queued =>
    intro r hr
    have queued := work.queued r hr
    rw [← other (notQueued hr)] at queued
    exact queued
  case queuedOnce => exact work.queuedOnce
  case release =>
    intro r hr
    obtain rfl := Option.some.inj hr
    refine ⟨(bound l).trans ?_, congrArg MapEntry.releasing same⟩
    rw [boundPhys, binding]
    rfl
  case committing =>
    intro x hx hc
    have hne : x.sector ≠ l := fun e => by
      rw [free x hx e] at hc
      cases hc
    have flag := work.committing x hx hc
    rw [← other hne] at flag
    exact flag
  case lane => exact work.lane

theorem SectorsAccounted.acceptRelease (l : Sector) : SectorsAccounted (acceptRelease l s) := by
  unfold Machine.acceptRelease
  split
  · exact h.respond _ _ _
  next busy =>
    rw [releaseBusy_iff, not_or] at busy
    obtain ⟨noCommit, noFlight⟩ := busy
    obtain ⟨map, entries⟩ := discardStaged_left l s
    have left := (h.discardStaged l).dequeueReloc l
    have field :
        (mapEntry (Machine.dequeueReloc l (Machine.discardStaged l s)) l).reloc = .absent :=
      mapEntry_dequeueReloc_absent fun p b hf => noFlight ⟨p, b, by rwa [mapEntry_congr map] at hf⟩
    have free : ∀ e ∈ (Machine.dequeueReloc l (Machine.discardStaged l s)).wmb.entries,
        e.sector = l → e.isCommitting = false := fun e he hl => by
      rw [dequeueReloc_wmb] at he
      exact Bool.eq_false_iff.mpr fun hc => noCommit ⟨e, entries e he, hl, hc⟩
    generalize Machine.dequeueReloc l (Machine.discardStaged l s) = u at left field free ⊢
    dsimp only
    split
    · exact left.answerLong _ _ _
    next b hb => exact ((left.answerLong _ _ _).startRelease hb field free).settle

theorem SectorsAccounted.answerRelease (n : BitVec 16) : SectorsAccounted (answerRelease n s) := by
  unfold Machine.answerRelease
  split
  · exact h.acceptRelease _
  · exact h.respond _ _ _

end Switch

end Sys2Proof.Machine
end

section
/-!
PROOFS. Sector accounting through the start-up scanner (section 10.3): the judgement of a tag, the
next tag and the end of the scan.
-/

namespace Sys2Proof.Machine

open Sys2Proof

/-! ### The scanner's tables -/

/-- A physical sector is classified CANDIDATE. -/
def Scanner.isCandidate (sc : Scanner) (p : Phys) : Prop :=
  ∃ n, Table.find sc.classes p.val = some ⟨.candidate, n⟩

/-- The scanner's two tables agree: the part of `ScanAgrees` that tells of no die. -/
structure Scanner.Agree (sc : Scanner) : Prop where
  keys : ∀ c ∈ sc.classes, c.1 < 1056
  candidates : ∀ p : Phys, (∃ (l : Sector) (c : Candidate),
    Table.find sc.candidates l.val = some c ∧ c.phys = p) ↔ sc.isCandidate p
  once : ∀ (l l' : Sector) (c c' : Candidate), Table.find sc.candidates l.val = some c →
    Table.find sc.candidates l'.val = some c' → c.phys = c'.phys → l = l'

theorem ScanAgrees.tables {s : State} (h : ScanAgrees s) : s.scan.Agree :=
  ⟨h.keys, h.candidates, h.candidateOnce⟩

section Tables

variable {sc t : Scanner} {p : Phys}

theorem mem_classify {k : ClassKind} {n : EraseCount} {c : Nat × Classified}
    (hc : c ∈ (sc.classify p k n).classes) : c.1 < 1056 ∨ c ∈ sc.classes := by
  rcases Table.mem_insert.mp hc with rfl | hc
  · exact .inl p.isLt
  · exact .inr (List.mem_filter.mp hc).1

theorem Scanner.Agree.keys_classify (h : ∀ c ∈ sc.classes, c.1 < 1056) (p : Phys) (k : ClassKind)
    (n : EraseCount) : ∀ c ∈ (sc.classify p k n).classes, c.1 < 1056 :=
  fun c hc => (mem_classify hc).elim id (h c)

/-- The candidates stay, and so do the sectors classified so. -/
theorem Scanner.Agree.reclassed (h : sc.Agree) (same : t.candidates = sc.candidates)
    (keys : ∀ c ∈ t.classes, c.1 < 1056) (kinds : ∀ q, t.isCandidate q ↔ sc.isCandidate q) :
    t.Agree :=
  ⟨keys, fun q => by rw [same, kinds]; exact h.candidates q, by rw [same]; exact h.once⟩

/-- A sector that was not yet judged takes the candidate table's place for a logical sector. -/
theorem Scanner.Agree.put (h : sc.Agree) {l : Sector} {g : Gen} (fresh : ¬ sc.isCandidate p)
    (put : t.candidates = Table.put sc.candidates l.val ⟨p, g⟩)
    (keys : ∀ c ∈ t.classes, c.1 < 1056) (own : t.isCandidate p)
    (others : ∀ q, q ≠ p → (t.isCandidate q ↔ sc.isCandidate q ∧
      ∀ old, Table.find sc.candidates l.val = some old → old.phys ≠ q)) : t.Agree := by
  have here : Table.find t.candidates l.val = some ⟨p, g⟩ := by rw [put, Table.find_put_same]
  have there {x : Sector} (hx : x ≠ l) :
      Table.find t.candidates x.val = Table.find sc.candidates x.val := by
    rw [put, Table.find_put_other _ _ fun e => hx (Fin.ext e)]
  have elsewhere {x : Sector} {c : Candidate} (hc : Table.find sc.candidates x.val = some c) :
      c.phys ≠ p := fun e => fresh ((h.candidates p).mp ⟨x, c, hc, e⟩)
  refine ⟨keys, fun q => ?_, fun x y c c' hx hy same => ?_⟩
  · by_cases hq : q = p
    · subst hq
      exact iff_of_true ⟨l, _, here, rfl⟩ own
    · rw [others q hq, ← h.candidates q]
      constructor
      · rintro ⟨x, c, hc, rfl⟩
        have hx : x ≠ l := by
          rintro rfl
          rw [here] at hc
          exact hq (congrArg Candidate.phys (Option.some.inj hc)).symm
        rw [there hx] at hc
        exact ⟨⟨x, c, hc, rfl⟩, fun old hold e => hx (h.once x l c old hc hold e.symm)⟩
      · rintro ⟨⟨x, c, hc, rfl⟩, apart⟩
        have hx : x ≠ l := by
          rintro rfl
          exact apart c hc rfl
        exact ⟨x, c, (there hx).trans hc, rfl⟩
  · by_cases hxl : x = l <;> by_cases hyl : y = l
    · rw [hxl, hyl]
    · subst hxl
      obtain rfl := Option.some.inj (here.symm.trans hx)
      exact absurd same.symm (elsewhere ((there hyl).symm.trans hy))
    · subst hyl
      obtain rfl := Option.some.inj (here.symm.trans hy)
      exact absurd same (elsewhere ((there hxl).symm.trans hx))
    · exact h.once x y c c' ((there hxl).symm.trans hx) ((there hyl).symm.trans hy) same

theorem Scanner.isCandidate_classify_other {q : Phys} (hq : q ≠ p) (k : ClassKind)
    (n : EraseCount) : (sc.classify p k n).isCandidate q ↔ sc.isCandidate q := by
  simp only [Scanner.isCandidate, Scanner.find_classify_other sc k n hq]

theorem Scanner.isCandidate_classify_same (k : ClassKind) (n : EraseCount) :
    (sc.classify p k n).isCandidate p ↔ k = .candidate := by
  simp [Scanner.isCandidate, Scanner.find_classify_same]

end Tables

/-- A tag's candidate goes with its classification (R157). -/
theorem classifyTag_kind (tag : List Byte) :
    (classifyTag tag).kind = .candidate ↔ (classifyTag tag).candidate ≠ none := by
  unfold classifyTag
  split
  · simp
  · split
    · simp
    · split <;> simp

section Judge

variable {sc : Scanner} {p : Phys}

/-- A tag judged on a sector that was not judged keeps the tables in agreement (R157, R158). -/
theorem Scanner.Agree.judge (h : sc.Agree) (fresh : Table.find sc.classes p.val = none)
    (tag : List Byte) : (sc.judge p tag).Agree := by
  have notYet : ¬ sc.isCandidate p := by simp [Scanner.isCandidate, fresh]
  have keys := Scanner.Agree.keys_classify h.keys p (classifyTag tag).kind (tagCount tag)
  cases hcand : (classifyTag tag).candidate with
  | none =>
    obtain ⟨candidates, classes⟩ := Scanner.judge_of_no_candidate (sc := sc) (p := p) hcand
    have kind : (classifyTag tag).kind ≠ .candidate := by simp [classifyTag_kind, hcand]
    refine h.reclassed candidates (by rw [classes]; exact keys) fun q => ?_
    rw [Scanner.isCandidate, classes]
    by_cases hq : q = p
    · subst hq
      exact iff_of_false (mt (Scanner.isCandidate_classify_same _ _).mp kind) notYet
    · exact Scanner.isCandidate_classify_other hq _ _
  | some lg =>
    obtain ⟨l, g⟩ := lg
    obtain ⟨candidates, classes⟩ := Scanner.judge_of_candidate (sc := sc) (p := p) hcand
    have kind : (classifyTag tag).kind = .candidate := by simp [classifyTag_kind, hcand]
    have own : (sc.classed p tag).isCandidate p := (Scanner.isCandidate_classify_same _ _).mpr kind
    have other {q : Phys} (hq : q ≠ p) : (sc.classed p tag).isCandidate q ↔ sc.isCandidate q :=
      Scanner.isCandidate_classify_other hq _ _
    cases hold : Table.find sc.candidates l.val with
    | none =>
      have compared := Scanner.compare_first (sc := sc.classed p tag) ⟨p, g⟩ hold
      rw [compared] at candidates classes
      refine h.put (l := l) (g := g) notYet candidates (by rw [classes]; exact keys) ?_
        fun q hq => ?_
      · rw [Scanner.isCandidate, classes]
        exact own
      · rw [Scanner.isCandidate, classes, hold]
        exact (other hq).trans (by simp)
    | some old =>
      have oldIs : sc.isCandidate old.phys := (h.candidates _).mp ⟨l, old, hold, rfl⟩
      have ne : old.phys ≠ p := fun e => notYet (e ▸ oldIs)
      cases hb : beats ⟨p, g⟩ old with
      | true =>
        have compared := Scanner.compare_beaten (sc := sc.classed p tag) hold hb
        rw [compared] at candidates classes
        refine h.put (l := l) (g := g) notYet candidates ?_ ?_ fun q hq => ?_
        · rw [classes]
          exact Scanner.Agree.keys_classify keys _ _ _
        · rw [Scanner.isCandidate, classes]
          exact (Scanner.isCandidate_classify_other ne.symm _ _).mpr own
        · rw [Scanner.isCandidate, classes]
          by_cases hqo : q = old.phys
          · subst hqo
            refine iff_of_false (mt (Scanner.isCandidate_classify_same _ _).mp (by decide)) ?_
            exact fun ⟨_, apart⟩ => apart old hold rfl
          · refine (Scanner.isCandidate_classify_other hqo _ _).trans ((other hq).trans ?_)
            refine (and_iff_left fun x hx => ?_).symm
            obtain rfl := Option.some.inj (hold.symm.trans hx)
            exact Ne.symm hqo
      | false =>
        have compared := Scanner.compare_kept (sc := sc.classed p tag) (c := ⟨p, g⟩) hold hb
        rw [compared] at candidates classes
        refine h.reclassed candidates ?_ fun q => ?_
        · rw [classes]
          exact Scanner.Agree.keys_classify keys _ _ _
        · rw [Scanner.isCandidate, classes]
          by_cases hq : q = p
          · subst hq
            exact iff_of_false (mt (Scanner.isCandidate_classify_same _ _).mp (by decide)) notYet
          · exact (Scanner.isCandidate_classify_other hq _ _).trans (other hq)

/-- The judgement of a sector leaves the others that were not judged so. -/
theorem Scanner.Agree.judge_ahead (h : sc.Agree) (tag : List Byte) {q : Phys} (hq : q ≠ p)
    (fresh : Table.find sc.classes q.val = none) :
    Table.find (sc.judge p tag).classes q.val = none := by
  have classed : Table.find (sc.classed p tag).classes q.val = none :=
    (Scanner.find_classify_other _ _ _ hq).trans fresh
  cases hcand : (classifyTag tag).candidate with
  | none =>
    rw [(Scanner.judge_of_no_candidate (sc := sc) (p := p) hcand).2]
    exact classed
  | some lg =>
    obtain ⟨l, g⟩ := lg
    rw [(Scanner.judge_of_candidate (sc := sc) (p := p) hcand).2]
    cases hold : Table.find sc.candidates l.val with
    | none =>
      rw [Scanner.compare_first (sc := sc.classed p tag) ⟨p, g⟩ hold]
      exact classed
    | some old =>
      have ne : q ≠ old.phys := by
        rintro rfl
        obtain ⟨n, hn⟩ := (h.candidates _).mp ⟨l, old, hold, rfl⟩
        rw [fresh] at hn
        cases hn
      cases hb : beats ⟨p, g⟩ old with
      | true =>
        rw [Scanner.compare_beaten (sc := sc.classed p tag) hold hb]
        exact (Scanner.find_classify_other _ _ _ ne).trans classed
      | false =>
        rw [Scanner.compare_kept (sc := sc.classed p tag) (c := ⟨p, g⟩) hold hb]
        exact (Scanner.find_classify_other _ _ _ hq).trans classed

end Judge

/-! ### The tags asked for -/

theorem nextPhys_eq_some {p q : Phys} (h : nextPhys p = some q) :
    q.val = p.val + 1 ∧ dieOf q = dieOf p := by
  unfold nextPhys at h
  split at h
  next hp =>
    split at h
    · cases h
    next hne =>
      obtain rfl := Option.some.inj h
      refine ⟨rfl, ?_⟩
      unfold dieOf
      dsimp only
      split <;> split <;> first | rfl | omega
  next => cases h

section Scan

variable {s : State} (h : SectorsAccounted s) {d : DieId} {p : Phys}

include h

theorem SectorsAccounted.setScan {x : Scanner} (tables : x.Agree)
    (asks : ∀ e, scannerOps (s.dies.get e) = [] ∨ x.progress.get e = s.scan.progress.get e)
    (ahead : ∀ e (q : Phys), dieOf q = e →
      x.progress.get e = .waiting ∨ (∃ r, x.progress.get e = .reading r ∧ r ≤ q) →
      Table.find x.classes q.val = none) : SectorsAccounted (s.setScan x) := by
  obtain ⟨sets, work, scan⟩ := h
  refine ⟨{ sets with }, { work with }, tables.keys, tables.candidates, tables.once, fun e => ?_,
    ahead⟩
  rcases asks e with noOps | same
  · exact .inl noOps
  · rcases scan.asks e with noOps | ⟨q, hq, hd, ops⟩
    · exact .inl noOps
    · exact .inr ⟨q, same.trans hq, hd, ops⟩

/-- The READ TAG of the sector the scan has come to (R156). -/
theorem SectorsAccounted.asksTag (noOps : scannerOps (s.dies.get d) = [])
    (progress : s.scan.progress.get d = .reading p) (hp : dieOf p = d) :
    SectorsAccounted (Machine.issue .scanner (.readTag p) s) := by
  subst hp
  obtain ⟨sets, work, scan⟩ := h
  refine ⟨{ sets with }, { work with }, { scan with asks := fun e => ?_ }⟩
  by_cases he : e = dieOf p
  · subst he
    refine .inr ⟨p, progress, rfl, ?_⟩
    rw [scannerOps_eq] at noOps
    obtain ⟨waits, state⟩ := List.append_eq_nil_iff.mp noOps
    have asked : (Machine.issue .scanner (.readTag p) s).dies.get (dieOf p) = _ :=
      issue_get_same .scanner (.readTag p) s
    rw [asked, scannerOps_eq]
    calc
      _ = scannerWaits ((s.dies.get (dieOf p)).waiting ++ [⟨.scanner, .readTag p, s.now⟩]) ++
          (s.dies.get (dieOf p)).state.scannerOps := rfl
      _ = (scannerWaits (s.dies.get (dieOf p)).waiting ++ [.readTag p]) ++
          (s.dies.get (dieOf p)).state.scannerOps := by
        rw [scannerWaits, scannerWaits, List.filter_append, List.map_append]
        rfl
      _ = [.readTag p] := by rw [waits, state]; rfl
  · have same : (Machine.issue .scanner (.readTag p) s).dies.get e = s.dies.get e :=
      PerDie.get_set_other _ _ he
    rw [same]
    exact scan.asks e

/-- The scanner goes on to a sector of the die, on the tables as they are then. -/
theorem SectorsAccounted.readsNext {sc : Scanner} (noOps : scannerOps (s.dies.get d) = [])
    (tables : sc.Agree) (hp : dieOf p = d)
    (here : ∀ q, dieOf q = d → p ≤ q → Table.find sc.classes q.val = .none)
    (there : ∀ q, dieOf q ≠ d → Table.find s.scan.classes q.val = .none →
      Table.find sc.classes q.val = .none) :
    SectorsAccounted (Machine.issue .scanner (.readTag p)
      (s.setScan { sc with progress := s.scan.progress.set d (.reading p) })) := by
  refine SectorsAccounted.asksTag (d := d) (h.setScan
    (x := { sc with progress := s.scan.progress.set d (.reading p) })
    ⟨tables.keys, tables.candidates, tables.once⟩ (fun e => ?_) fun e q hq hr => ?_)
    noOps (PerDie.get_set_same _ _ _) hp
  · by_cases he : e = d
    · exact .inl (he ▸ noOps)
    · exact .inr (PerDie.get_set_other _ _ he)
  · by_cases he : e = d
    · subst he
      rw [PerDie.get_set_same] at hr
      rcases hr with hr | ⟨r, hr, hle⟩
      · cases hr
      · obtain rfl : p = r := by injection hr
        exact here q hq hle
    · rw [PerDie.get_set_other _ _ he] at hr
      exact there q (by rw [hq]; exact he) (h.2.2.ahead e q hq hr)

/-- The scan of a die is done. -/
theorem SectorsAccounted.readsNoMore {sc : Scanner} (noOps : scannerOps (s.dies.get d) = [])
    (tables : sc.Agree) (there : ∀ q, dieOf q ≠ d → Table.find s.scan.classes q.val = .none →
      Table.find sc.classes q.val = .none) :
    SectorsAccounted (s.setScan { sc with progress := s.scan.progress.set d .done }) := by
  refine h.setScan (x := { sc with progress := s.scan.progress.set d .done })
    ⟨tables.keys, tables.candidates, tables.once⟩ (fun e => ?_) fun e q hq hr => ?_
  · by_cases he : e = d
    · exact .inl (he ▸ noOps)
    · exact .inr (PerDie.get_set_other _ _ he)
  · by_cases he : e = d
    · subst he
      rw [PerDie.get_set_same] at hr
      rcases hr with hr | ⟨r, hr, -⟩ <;> cases hr
    · rw [PerDie.get_set_other _ _ he] at hr
      exact there q (by rw [hq]; exact he) (h.2.2.ahead e q hq hr)

theorem SectorsAccounted.scanIfReady (d : DieId) : SectorsAccounted (scanIfReady d s) := by
  unfold Machine.scanIfReady
  split
  next ready =>
    obtain ⟨-, -, waiting, -⟩ := ready
    have noOps : scannerOps (s.dies.get d) = [] := by
      rcases h.2.2.asks d with noOps | ⟨q, hq, -⟩
      · exact noOps
      · rw [waiting] at hq; cases hq
    exact h.readsNext noOps h.2.2.tables (dieOf_firstPhys d)
      (fun q hq _ => h.2.2.ahead d q hq (.inl waiting)) fun _ _ hq => hq
  next => exact h

theorem SectorsAccounted.scanTag (noOps : scannerOps (s.dies.get d) = [])
    (progress : s.scan.progress.get d = .reading p) (hp : dieOf p = d) (tag : List Byte) :
    SectorsAccounted (scanTag d p tag s) := by
  obtain ⟨l, told⟩ := scanTold_shape p tag s
  have recorded := h.setLink l
  have reached (q : Phys) (hq : dieOf q = d) (hle : p ≤ q) :
      Table.find s.scan.classes q.val = .none := h.2.2.ahead d q hq (.inr ⟨p, progress, hle⟩)
  have tables := h.2.2.tables.judge (reached p hp (le_refl p)) tag
  have there (q : Phys) (hq : dieOf q ≠ d) (fresh : Table.find s.scan.classes q.val = .none) :
      Table.find (s.scan.judge p tag).classes q.val = .none :=
    h.2.2.tables.judge_ahead tag (fun e => hq (e ▸ hp)) fresh
  cases hnext : nextPhys p with
  | none =>
    rw [scanTag_last hnext, told]
    exact recorded.readsNoMore noOps tables there
  | some q =>
    obtain ⟨step, same⟩ := nextPhys_eq_some hnext
    rw [scanTag_next hnext, told]
    refine recorded.readsNext noOps tables (same.trans hp) (fun x hx hle => ?_) there
    have above : p.val < x.val := by
      have := Fin.le_def.mp hle
      omega
    exact h.2.2.tables.judge_ahead tag (fun e => by simp [e] at above)
      (reached x hx (Fin.le_def.mpr above.le))

/-! ### The end of the scan -/

/-- The map and the sets that the scan gives (R159). -/
theorem SectorsAccounted.scanned (tables : TablesCanonical s) (quiet : StartingQuiet s)
    (op : s.power.op = .starting) (ready : ∀ d, s.scan.progress.get d = .done) :
    SectorsAccounted (scanned s) := by
  obtain ⟨-, -, scan⟩ := h
  obtain ⟨entries, -⟩ := quiet.entries op
  obtain ⟨lanes, reloc, erase, release⟩ := quiet.engines op
  have keys := scan.keys
  have bound (l : Sector) : boundPhys (Machine.scanned s) l =
      (Table.find s.scan.candidates l.val).map (·.phys) := by
    have entry : mapEntry (Machine.scanned s) l =
        ((Table.find s.scan.candidates l.val).map Candidate.mapEntry).getD MapEntry.unbacked :=
      congrArg (Option.getD · MapEntry.unbacked) (find_scannedMap _ _)
    rw [boundPhys, entry]
    cases Table.find s.scan.candidates l.val <;> rfl
  have boundIff (l : Sector) (p : Phys) : boundPhys (Machine.scanned s) l = some p ↔
      ∃ c, Table.find s.scan.candidates l.val = some c ∧ c.phys = p := by
    rw [bound, Option.map_eq_some_iff]
  have found (p : Phys) : Table.find (Machine.scanned s).acct.recs p.val =
      (Table.find s.scan.classes p.val).map Classified.physRec := find_scannedRecs _ _
  have member (p : Phys) (m : Membership) : membershipOf (Machine.scanned s) p = some m ↔
      ∃ k n, Table.find s.scan.classes p.val = some ⟨k, n⟩ ∧ k.membership = m := by
    rw [membershipOf, found, Option.map_map, Option.map_eq_some_iff]
    constructor
    · rintro ⟨⟨k, n⟩, hx, hm⟩
      exact ⟨k, n, hx, hm⟩
    · rintro ⟨k, n, hx, hm⟩
      exact ⟨⟨k, n⟩, hx, hm⟩
  have noItems (d : DieId) : ((Machine.scanned s).erase.slots.get d).items = none := by
    show (s.erase.slots.get d).items = none
    rw [erase]
    cases d <;> rfl
  have noTarget : (Machine.scanned s).reloc.engine = .idle := by
    show s.reloc.engine = .idle
    rw [reloc]
  have noneOf {k : ClassKind} {m : Membership} (hm : m = .target ∨ m = .erasing)
      (h : k.membership = m) : False := by
    cases k <;> rcases hm with rfl | rfl <;> cases h
  refine ⟨?_, ?_, ?_⟩
  · constructor
    case pool =>
      intro p
      rw [member]
      refine (mem_scannedPool tables.classes keys p).trans
        ⟨fun ⟨n, hn⟩ => ⟨_, n, hn, rfl⟩, fun ⟨k, n, hn, hk⟩ => ?_⟩
      cases k <;> cases hk
      exact ⟨n, hn⟩
    case wear => exact scannedPool_ordered tables.classes keys rfl
    case queue =>
      intro p
      rw [member]
      refine (exists_congr fun n => mem_scannedQueue tables.classes keys p n).trans
        ⟨fun ⟨n, hn⟩ => ⟨_, n, hn, rfl⟩, fun ⟨k, n, hn, hk⟩ => ?_⟩
      cases k <;> cases hk
      exact ⟨n, hn⟩
    case queueOnce => exact (scannedQueue_ordered tables.classes keys).imp ne_of_lt
    case queueCount =>
      intro r hr
      have := (mem_scannedQueue tables.classes keys r.phys r.count).mp hr
      rw [knownCount, found, this]
      rfl
    case retired =>
      intro p
      rw [member]
      refine (exists_congr fun why => mem_scannedRetired tables.classes keys p why).trans
        ⟨fun ⟨why, n, hn⟩ => ⟨_, n, hn, rfl⟩, fun ⟨k, n, hn, hk⟩ => ?_⟩
      cases k with
      | retired why => exact ⟨why, n, hn⟩
      | _ => cases hk
    case retiredOnce => exact (scannedRetired_ordered tables.classes keys).imp ne_of_lt
    case mapped =>
      intro p
      simp only [boundIff, member]
      refine (scan.candidates p).trans ⟨fun ⟨n, hn⟩ => ⟨_, n, hn, rfl⟩, fun ⟨k, n, hn, hk⟩ => ?_⟩
      cases k <;> cases hk
      exact ⟨n, hn⟩
    case boundOnce =>
      intro l l' p hl hl'
      obtain ⟨c, hc, hp⟩ := (boundIff l p).mp hl
      obtain ⟨c', hc', hp'⟩ := (boundIff l' p).mp hl'
      exact scan.candidateOnce l l' c c' hc hc' (hp.trans hp'.symm)
    case target =>
      intro p
      rw [noTarget, member]
      exact iff_of_false (fun h => nomatch h) fun ⟨k, n, _, hk⟩ => noneOf (.inl rfl) hk
    case erasing =>
      intro p
      rw [member]
      refine iff_of_false (fun ⟨d, i, hi, _⟩ => ?_) fun ⟨k, n, _, hk⟩ => noneOf (.inr rfl) hk
      rw [noItems] at hi
      cases hi
    case slotDie =>
      intro d i hi
      rw [noItems] at hi
      cases hi
  · have noLane (d : DieId) : s.lanes.get d = .idle := by rw [lanes]; cases d <;> rfl
    constructor
    case job =>
      intro j hj
      rw [noTarget] at hj
      cases hj
    case queued =>
      intro r hr
      have hr : r ∈ s.reloc.queue := hr
      rw [reloc] at hr
      cases hr
    case queuedOnce =>
      show (s.reloc.queue.map _).Nodup
      rw [reloc]
      exact List.nodup_nil
    case release =>
      intro r hr
      exact nomatch release.symm.trans hr
    case committing =>
      intro e he
      have he : e ∈ s.wmb.entries := he
      rw [entries] at he
      cases he
    case lane =>
      intro d id hd
      have hd : (s.lanes.get d).holds id := hd
      rw [noLane] at hd
      exact absurd hd (Lane.holds_idle id)
  · have quietOps (d : DieId) : scannerOps (s.dies.get d) = [] := by
      rcases scan.asks d with noOps | ⟨q, hq, -⟩
      · exact noOps
      · rw [ready] at hq; cases hq
    constructor
    case asks => exact fun d => .inl (quietOps d)
    all_goals simp [Machine.scanned, Scanner.atReset, Table.find]

theorem SectorsAccounted.endScan (tables : TablesCanonical s) (quiet : StartingQuiet s)
    (op : s.power.op = .starting) (ready : ∀ d, s.scan.progress.get d = .done) :
    SectorsAccounted (endScan s) := by
  rw [endScan_eq (quiet.entries op).1]
  exact (h.scanned tables quiet op ready).handleHeldCycle

end Scan

end Sys2Proof.Machine
end

section
/-!
PROOFS. Sector accounting through the die schedulers' own happenings and the power monitor, and
every step.
-/

namespace Sys2Proof.Machine

open Sys2Proof

/-! ### The scanner's operation at a die -/

/-- The die answers the scanner, or is reset for it: the operation is the READ TAG of the sector the
scan has come to, and no other waits. -/
theorem ScanAgrees.answers {s : State} (h : ScanAgrees s) {d : DieId} {op : DieOp}
    (ops : (s.dies.get d).state.scannerOps = [op]) :
    ∃ p, op = .readTag p ∧ s.scan.progress.get d = .reading p ∧ dieOf p = d ∧
      scannerWaits (s.dies.get d).waiting = [] := by
  have asks := h.asks d
  rw [scannerOps_eq, ops] at asks
  rcases asks with none | ⟨p, progress, hp, one⟩
  · simp at none
  · obtain ⟨waits, last⟩ := List.append_eq_singleton_iff.mp one |>.resolve_right (by simp)
    exact ⟨p, (List.singleton_inj.mp last), progress, hp, waits⟩

theorem inProgress_scannerOps {die : Die} {r : Request} (h : die.inProgress = some r)
    (hwho : r.requester = .scanner) : die.state.scannerOps = [r.op] := by
  cases hst : die.state <;> simp [Die.inProgress, hst] at h <;>
    simp [DieState.scannerOps, h, hwho]

theorem inProgress_of_answering {s : State} {d : DieId} {who : Requester} {op : DieOp}
    (h : answering s d who = some op) :
    ∃ r, (s.dies.get d).inProgress = some r ∧ r.requester = who ∧ r.op = op := by
  unfold answering at h
  split at h
  · cases h
  · split at h
    next r hr =>
      split at h
      next hwho => exact ⟨r, hr, hwho, Option.some.inj h⟩
      next => cases h
    next => cases h

/-- A result leaves nothing in progress at the die. -/
theorem endOperation_scannerOps {s : State} {d : DieId} {r : Request}
    (h : (s.dies.get d).inProgress = some r) :
    scannerOps ((endOperation d s).dies.get d) = scannerWaits (s.dies.get d).waiting := by
  have left {st : DieState} (hst : st.scannerOps = []) :
      scannerOps ((setDieState d st s).dies.get d) = scannerWaits (s.dies.get d).waiting := by
    rw [setDieState, setDie_get_same, scannerOps_eq]
    exact (congrArg _ hst).trans (List.append_nil _)
  unfold endOperation
  split
  case h_1 | h_2 | h_3 => exact left rfl
  all_goals simp_all [Die.inProgress]

section Dies

variable {s : State} (h : SectorsAccounted s) {d : DieId}

include h

/-! ### The dies -/

theorem SectorsAccounted.pauseAnswered (held : Bool) :
    SectorsAccounted (pauseAnswered d held s) := by
  unfold Machine.pauseAnswered
  split
  · exact (h.setDieState (.inl rfl)).countUp _ _
  · exact h.setDieState (.inl rfl)
  · exact h

/-- The DIE RESET of a time-out stands for the operation it cuts. -/
theorem SectorsAccounted.cutForTimeout {r : Request} {held : Bool} (dt : Nat)
    (ops : (s.dies.get d).state.scannerOps = if r.requester = .scanner then [r.op] else []) :
    SectorsAccounted
      (Machine.dieReset d (.timeout r.requester r.op held) (Machine.elapse dt s)) := by
  refine (h.elapse dt).dieReset (.inr ?_)
  rw [elapse_get, Die.elapse, DieState.elapse_scannerOps, ops]
  cases hr : r.requester <;> rfl

theorem SectorsAccounted.operationTimesOut : SectorsAccounted (operationTimesOut d s) := by
  unfold Machine.operationTimesOut
  split
  case h_1 hst | h_2 hst | h_3 hst => exact h.cutForTimeout _ (by rw [hst]; rfl)
  case h_4 => exact (h.elapse _).dieReset (.inl rfl)
  all_goals exact h

theorem SectorsAccounted.pauseTimesOut : SectorsAccounted (pauseTimesOut d s) := by
  unfold Machine.pauseTimesOut
  split
  · exact ((h.elapse _).record _).dieReset (.inl rfl)
  all_goals exact h

theorem SectorsAccounted.enterFailed : SectorsAccounted (enterFailed s) := by
  unfold Machine.enterFailed
  split
  · exact h
  · exact (h.setPower _).portEntersFailed

theorem SectorsAccounted.dieResetTimesOut : SectorsAccounted (dieResetTimesOut d s) := by
  unfold Machine.dieResetTimesOut
  split
  · split
    · exact h
    · refine SectorsAccounted.enterFailed (((h.elapse _).record _).setDie ?_)
      exact scannerOps_subperm (by rfl) (.inr (by rfl))
  all_goals exact h

theorem SectorsAccounted.readyDisregarded : SectorsAccounted (readyDisregarded d s) := by
  unfold Machine.readyDisregarded
  split
  next cause time answered hst =>
    refine h.setDieState (.inr ?_)
    rw [hst]
    cases cause with
    | timeout who op held => cases who <;> rfl
    | _ => rfl
  all_goals exact h

/-! ### READY -/

/-- TIMEOUT delivered to the requester; the scanner's operation is the READ TAG it awaits. -/
theorem SectorsAccounted.deliverTimeout {who : Requester} {op : DieOp}
    (scanner : who = .scanner → ∃ p, op = .readTag p ∧ s.scan.progress.get d = .reading p ∧
      dieOf p = d ∧ scannerOps (s.dies.get d) = []) :
    SectorsAccounted (deliverTimeout d who op s) := by
  unfold Machine.deliverTimeout
  split
  · exact h.portReadTimeout
  · split
    · exact h.laneReadTimeout
    · exact h.laneProgramFails
  · exact h.relocationTimeout op
  · exact h.slotTimeout op
  · exact h.releaseTimeout op
  · obtain ⟨p, rfl, progress, hp, noOps⟩ := scanner rfl
    exact h.asksTag noOps progress hp

theorem SectorsAccounted.readyBrings {cause : ResetCause} {time : Nat} {answered : Bool}
    (hst : (s.dies.get d).state = .resetting cause time answered) :
    SectorsAccounted (readyBrings d cause (Machine.setDieState d .idle s)) := by
  have freed := h.setDieState (d := d) (x := .idle) (.inl rfl)
  unfold Machine.readyBrings
  split
  · exact freed.scanIfReady d
  next who op held =>
    have delivered : SectorsAccounted
        (Machine.deliverTimeout d who op (Machine.setDieState d .idle s)) := by
      refine freed.deliverTimeout fun hwho => ?_
      subst hwho
      obtain ⟨p, tag, progress, hp, waits⟩ := h.2.2.answers (d := d) (op := op) (by rw [hst]; rfl)
      refine ⟨p, tag, progress, hp, ?_⟩
      rw [Machine.setDieState, setDie_get_same, scannerOps_eq]
      exact (List.append_nil _).trans waits
    dsimp only
    split
    · exact delivered.abandonReported
    · exact delivered
  · exact freed.pauseTimeoutReported
  · exact freed.abandonReported

theorem SectorsAccounted.dieReady (p : ResetCause → Bool) : SectorsAccounted (dieReady d p s) := by
  unfold Machine.dieReady
  split
  next cause time answered hst =>
    split
    · split
      · exact h.readyDisregarded
      · exact (h.readyBrings hst).settle
    · exact h
  all_goals exact h

theorem SectorsAccounted.readTagAnswered {p : Phys}
    (hp : answering s d .scanner = some (.readTag p)) (tag : List Byte) :
    SectorsAccounted (Machine.scanTag d p tag (Machine.endOperation d s)) := by
  obtain ⟨r, progress, hwho, hop⟩ := inProgress_of_answering hp
  obtain ⟨q, same, reading, die, waits⟩ :=
    h.2.2.answers (inProgress_scannerOps progress hwho)
  obtain rfl : p = q := by
    rw [hop] at same
    injection same
  have scan : (Machine.endOperation d s).scan = s.scan := by
    obtain ⟨ds, e⟩ := endOperation_shape d s
    rw [e]
    rfl
  exact (h.endOperation d).scanTag ((endOperation_scannerOps progress).trans waits)
    (by rw [scan]; exact reading) die tag

/-! ### The power monitor -/

theorem SectorsAccounted.releaseRst : SectorsAccounted (releaseRst s) := by
  have released := h.setPower { s.power with rst := false }
  unfold Machine.releaseRst
  dsimp only
  refine SectorsAccounted.scanIfReady (SectorsAccounted.scanIfReady ?_ _) _
  split
  · exact (released.setPort _).handleArrival _
  all_goals exact released

theorem SectorsAccounted.enterPowerdown : SectorsAccounted (enterPowerdown s) :=
  (h.setPower _).sealAll.slotPowersDown.slotPowersDown

theorem SectorsAccounted.returnToRunning : SectorsAccounted (returnToRunning s) :=
  (h.setPower _).presentHeldWrite.relocationResumes

end Dies

/-! ### Resets -/

theorem atReset_scannerOps (d : DieId) : scannerOps (State.reset.dies.get d) = [] := by
  cases d <;> rfl

theorem porValues_accounted (s : State) : SectorsAccounted (porValues s) :=
  .of_empty rfl rfl rfl rfl ⟨rfl, rfl⟩ rfl rfl rfl atReset_scannerOps

theorem rstValues_accounted (s : State) : SectorsAccounted (rstValues s) :=
  .of_empty rfl rfl rfl rfl ⟨rfl, rfl⟩ rfl rfl rfl atReset_scannerOps

/-! ### Every command -/

theorem eraseEnded_erase (d : DieId) (s : State) : (eraseEnded d s).erase = s.erase := by
  unfold eraseEnded
  split <;> rfl

section Exec

variable {s : State} (h : SectorsAccounted s)

include h

/-- A program's result, when its end is acted on (R119). -/
theorem SectorsAccounted.programEnds (d : DieId) (op : DieOp) (ok : Bool) :
    SectorsAccounted (Machine.endProgram op ok (Machine.endOperation d s)).1 :=
  (h.endOperation d).endProgram op ok

theorem SectorsAccounted.eraseResult {d : DieId} {i : SlotItems}
    (slot : s.erase.slots.get d = .erasing i) (ok : Bool) :
    SectorsAccounted (if ok then
        Machine.erasePasses d i ((Machine.eraseEnded d s).setMedium
          ((Machine.eraseEnded d s).medium.eraseSector i.phys))
      else Machine.eraseFails d i (((Machine.eraseEnded d s).setMedium
        ((Machine.eraseEnded d s).medium.cutErase (Machine.eraseEnded d s).draws i.phys)).setDraws
          ((Machine.eraseEnded d s).draws + 1))) := by
  have ended := h.eraseEnded (d := d)
  have items : ((Machine.eraseEnded d s).erase.slots.get d).items = some i := by
    rw [eraseEnded_erase, slot]
    rfl
  split
  · exact (ended.setMedium _).erasePasses items
  · exact ((ended.setMedium _).setDraws _).eraseFails items

theorem exec_accounted_unframed (tables : TablesCanonical s) (orderly : WmbOrderly s.wmb)
    (quiet : StartingQuiet s) {c : Instr} {t : State} (hc : isReset c = false)
    (hf : ∀ bytes, c ≠ .badCommandFrame bytes) (hrun : exec c s = .next t) :
    SectorsAccounted t := by
  cases c
  case por | rstAsserted => cases hc
  case badCommandFrame bytes => exact absurd rfl (hf bytes)
  all_goals injection hrun with hrun; subst hrun
  case rstReleased => split; exacts [h.releaseRst.settle, h]
  case pfailAsserted => split; exacts [(h.setPower _).enterPowerdown.settle, h.setPower _]
  case pfailReleased => split; exacts [(h.setPower _).returnToRunning.settle, h.setPower _]
  case flushFallingEdge => exact h.sealAll
  case hostRead => exact (h.arrive _).settle
  case hostWrite => exact h.arrive _
  case hostCycleAbandoned => exact h.abandonCycle
  case hostCycleEnd => exact h.endCycle
  case commitDelayExpiry => split; exacts [(h.elapse _).sealEntry _, h]
  case longStall =>
    split
    · split; exacts [h, h.elapse _]
    · exact h
  case heldWritePresented => exact h.presentHeldWrite
  case flushDrain => exact h.reportDrain
  case laneTake => split; exacts [(h.laneTakes orderly).settle, h]
  case laneReadLineResult => split; exacts [((h.endOperation _).laneTests _).settle, h]
  case laneProgramLineResult => split; exacts [((h.programEnds _ _ _).laneProgrammed _).settle, h]
  case relocationTake => split; exacts [(h.relocationTakes (by simp_all)).settle, h]
  case spareReport => split; exacts [h.spareReported.settle, h]
  case claimResult =>
    split
    · split; exacts [((h.programEnds _ _ _).claimEnds _).settle, h]
    · exact h
  case copyReadLineResult =>
    split
    · split
      · split; exacts [((h.endOperation _).copyLineReturns _).settle, h]
      · exact h
    · exact h
  case copyProgramLineResult =>
    split
    · split; exacts [((h.programEnds _ _ _).copyProgramEnds _).settle, h]
    · exact h
  case sealResult =>
    split
    · split; exacts [((h.programEnds _ _ _).sealEnds _).settle, h]
    · exact h
  case sourceRetireResult =>
    split
    · split; exacts [((h.programEnds _ _ _).sourceRetireEnds _).settle, h]
    · exact h
  case targetRetireResult =>
    split
    · split; exacts [((h.programEnds _ _ _).targetRetireEnds _).settle, h]
    · exact h
  case eraseStart d =>
    split
    next may =>
      split
      next r hr =>
        obtain ⟨mem, die⟩ := mem_of_oldestQueued hr
        exact (h.startErase mem die ((eraseMayStart_iff s d).mp may).2.1).settle
      next => exact h
    next => exact h
  case eraseSectorResult ok =>
    split
    next hslot =>
      split
      · exact (h.eraseResult hslot ok).settle
      · exact h
    next => exact h
  case countResult => split; exacts [((h.programEnds _ _ _).countEnds _).settle, h]
  case eraseRetireResult => split; exacts [((h.programEnds _ _ _).slotRetireEnds _).settle, h]
  case releaseProgramResult =>
    split
    · split; exacts [((h.programEnds _ _ _).releaseMarkEnds _).settle, h]
    · exact h
  case releaseRetireResult =>
    split
    · split; exacts [((h.programEnds _ _ _).releaseRetireEnds _).settle, h]
    · exact h
  case hostReadLineResult =>
    split
    · split; exacts [((h.endOperation _).portReadResult _).settle, h]
    · exact h
  case readTagResult =>
    split
    next hp => exact (h.readTagAnswered hp _).settle
    next => exact h
  case pauseAnswer => split; exacts [h, (h.pauseAnswered _).settle]
  case progressIntervalReached =>
    split
    · exact h
    · split; exacts [(h.elapse _).settle, h]
  case operationTimeout => split; exacts [h, h.operationTimesOut]
  case pauseTimeout => split; exacts [h, h.pauseTimesOut]
  case dieResetTimeout => exact h.dieResetTimesOut
  case dieReadyAfterReset | dieReadyAfterTimeout | dieReadyAfterPauseTimeout
    | dieReadyAfterAbandon => exact h.dieReady _
  case scanEnd =>
    split
    next due =>
      obtain ⟨op, done0, done1⟩ := due
      exact (h.endScan tables quiet op fun d => by cases d; exacts [done0, done1]).settle
    next => exact h
  case status => exact h.respond _ _ _
  case flush => exact h.unlessBusy h.acceptFlush
  case readRegion => exact h.unlessRefused (h.answerReadRegion _)
  case writeRegion => exact h.unlessRefused (h.answerWriteRegion _ _ _ _ _)
  case freezeRegion => exact h.unlessRefused (h.answerFreezeRegion _)
  case readCounters => exact h.unlessStarting (h.respond _ _ _)
  case clearCounters => exact h.unlessRefused ((h.setLink _).respond _ _ _)
  case readFault => exact h.unlessStarting h.answerReadFault
  case mapQuery => exact h.unlessRefused (h.answerMapQuery _)
  case sectorQuery => exact h.unlessRefused (h.answerSectorQuery _)
  case releaseSector => exact h.unlessBusy (h.answerRelease _)
  case setTiming => exact h.unlessRefused (h.answerSetTiming _ _)
  case eventEnable => exact h.unlessRefused (h.answerEventEnable _)

theorem exec_accounted (tables : TablesCanonical s) (orderly : WmbOrderly s.wmb)
    (quiet : StartingQuiet s) {c : Instr} {t : State} (hrun : exec c s = .next t) :
    SectorsAccounted t := by
  cases hc : isReset c with
  | true =>
    rcases exec_reset hc hrun with ⟨-, rfl⟩ | ⟨-, rfl⟩
    · exact porValues_accounted _
    · exact rstValues_accounted _
  | false =>
    by_cases hf : ∃ bytes, c = .badCommandFrame bytes
    · obtain ⟨bytes, rfl⟩ := hf
      rcases badFrame_cases hrun with ⟨code, command, rfl⟩ | rfl | ⟨c, -, hframe, hrun⟩
      · exact h.respond _ _ _
      · exact h
      · obtain ⟨-, -, hreset, hbad⟩ := commandParts_plain hframe
        exact exec_accounted_unframed h tables orderly quiet hreset hbad hrun
    · exact exec_accounted_unframed h tables orderly quiet hc (fun bytes hb => hf ⟨bytes, hb⟩) hrun

end Exec

/-- Settles O12: no write outside a reset and a scan's end takes a sector's record away, and each
write to the sets, the map and the blocks at work keeps them told alike. -/
theorem setsLoseNoSector : Obligations.SetsLoseNoSector := by
  refine ⟨fun c s t p hc hscan hrun => (exec_keeps hc hrun).member hscan p,
    fun s t tables orderly quiet accounted hstep => ?_⟩
  rcases step_cases hstep with ⟨c, q, hrun⟩ | rfl
  · refine exec_accounted (s := { s with pending := q }) ?_ ?_ orderly ?_ hrun
    · exact accounted.congr rfl rfl rfl rfl rfl rfl rfl rfl rfl
    · exact { tables with }
    · exact { quiet with }
  · exact accounted.elapse 1

end Sys2Proof.Machine
end
